-- ==== Sys2Proof/Word.lean ====
section
/-! DEFINITION. The machine's words: bytes of frames, 16-bit station addresses and sets, identifiers and the numbered resources of section 0.5. -/

namespace Sys2Proof

/-- One byte of a frame. -/
abbrev Byte := BitVec 8

/-- A station address, a 16-bit number (section 0.5). -/
abbrev Addr := BitVec 16

/-- A set of sites 0..15, bit k standing for site k (R182). -/
abbrev SiteSet := BitVec 16

/-- A set of bins 0..15, bit k standing for bin k (R182). -/
abbrev BinSet := BitVec 16

/-- A lot identifier: 16 characters (section 0.5). -/
abbrev LotIdent := Vector Byte 16

/-- A product identifier: 12 characters (section 0.5). -/
abbrev ProductIdent := Vector Byte 12

/-- The identifier part of a program's name: 8 characters (section 0.5). -/
abbrev ProgramIdent := Vector Byte 8

/-- Cells are numbered 0..31 (section 0.5). -/
abbrev CellId := Fin 32

/-- Lot slots are numbered 0..255 (section 0.5). -/
abbrev SlotId := Fin 256

/-- Product table indexes 0..63 (section 2.2). -/
abbrev ProductId := Fin 64

/-- Program library indexes 0..47 (section 2.3). -/
abbrev ProgramIx := Fin 48

/-- Sampling plan indexes 0..7 (section 2.4). -/
abbrev PlanId := Fin 8

/-- Equipment groups 0..7 (section 2.5). -/
abbrev GroupId := Fin 8

/-- Station table indexes 0..63 (section 10.3). -/
abbrev StationIx := Fin 64

/-- Sites 0..15 and bins 0..15 (section 0.5). -/
abbrev Site := Fin 16

/-- Bins 0..15 (section 0.5). -/
abbrev Bin := Fin 16

/-- An authority level 0..3, the lower number the stronger (Table 0-2). -/
abbrev Level := Fin 4

/-- The lot identifier field that names no lot: sixteen characters of code 0 (section 10.2). -/
def noLot : LotIdent := Vector.replicate 16 0

end Sys2Proof
end

