-- ==== Sys2Proof/Config.lean ====
section
/-! DEFINITION. The values the manual leaves open, as constants without a body: nothing in Lean can tell what they are. -/

namespace Sys2Proof

/-- How a flag or presence byte other than 0 and 1 is read in a frame the director receives: as the
flag it returns, or `none` when the body is taken as malformed. R182 gives the bytes 1 and 0 only.
DESIGN CHOICE, log 6. -/
opaque Config.oddFlag : Byte → Option Bool

/-- Whether an equipment frame that comes from the wrong source and has the wrong body length is counted
MALFORMED (true) or BAD_STATE (false). R181 and R38 give each cause and no order between them. DESIGN CHOICE, log 7. -/
opaque Config.lengthBeforeSource : Bool

/-- The requested level in the header of a frame the director originates, other than an answer; the
arguments are the port (0 the cell port, 1 the floor port) and the number of frames it had been handed before. R186 gives the answer's level and no
rule gives another's. DESIGN CHOICE, log 8. -/
opaque Config.originatedLevel : Nat → Nat → Byte

/-- The tag in the header of a command to a tester or handler; the argument is the number of frames the
port had been handed before. No rule gives it. DESIGN CHOICE, log 8. -/
opaque Config.commandTag : Nat → BitVec 16

/-- The reason byte of the HOLD_REMOVED notice that reports the clearing of an overflow flag; the
arguments are the port (0 the cell port, 1 the floor port) and the number of frames it had been handed
before. R151 gives the notice's hold id, kind
and level, and the flag keeps no reason (R145). DESIGN CHOICE, log 9. -/
opaque Config.overflowReason : Nat → Nat → Byte

end Sys2Proof
end

