-- ==== Sys2Proof/Syntax.lean ====
section
/-! DEFINITION. The commands of the director: one constructor per row of spec/opcode_table.json. -/

namespace Sys2Proof

/-- The two ports: the cell port faces testers and handlers, the floor port everything else (0.2). -/
inductive Port where
  | cell
  | floor
deriving DecidableEq, Repr

/-- The dialogue header of Table 10-1, less the kind (the command's row gives it) and the body length
(the body gives it). Version and flags are kept as carried. -/
structure Header where
  version : Byte
  dst     : Addr
  src     : Addr
  level   : Byte
  flags   : Byte
  tag     : BitVec 16
  lot     : LotIdent
deriving DecidableEq, Repr

/-- A dialogue frame at a port. `body` is what follows the bytes that name the command's row: the whole
body for an equipment kind, the bytes after the command byte for a director command, the bytes after the
action byte for CELL_SET. `pad` is the payload beyond header and body (R179). `heardAs` is the director's
own address in force when the frame was received, where that was before it is taken (R189); `none`
stands for a frame that is taken as it is received. -/
structure Frame where
  port      : Port
  etherType : BitVec 16
  hdr       : Header
  body      : List Byte
  pad       : List Byte
  heardAs   : Option Addr
deriving DecidableEq, Repr

/-- Frame kinds, in the order of Table 10-3 (R182). -/
inductive Kind where
  | workRequest
  | programReady
  | loadAbort
  | tdResult
  | stopped
  | unloaded
  | lotEnd
  | corrResult
  | corrEnd
  | loadSegment
  | qaResult
  | shipRequest
  | command
  | start
  | stop
  | resume
  | retest
  | unload
  | correlate
  | programFetch
  | answer
  | notice
deriving DecidableEq, Repr

/-- Director commands, in the order of Table 10-5 (R182). -/
inductive Command where
  | productWrite
  | productDelete
  | programWrite
  | programDelete
  | planWrite
  | groupWrite
  | goldenWrite
  | stationWrite
  | stationDelete
  | linkWrite
  | timeSet
  | warmReset
  | commissionEnd
  | offsetWrite
  | cellSet
  | unload
  | correlateNow
  | lotWithdraw
  | countersRead
  | lotEnter
  | lotPriority
  | assignNext
  | requestClear
  | holdPlace
  | holdRelease
  | holdSweep
  | lotQuery
  | queueRead
  | tableRead
  | cellQuery
  | stationRead
  | linkRead
deriving DecidableEq, Repr

/-- CELL_SET actions, in the order of Table 3-5 (R182). -/
inductive CellAction where
  | configure
  | enable
  | disable
  | siteRestore
  | resume
  | blockEnd
  | coverEnd
deriving DecidableEq, Repr

/-- The rows of spec/opcode_table.json. -/
inductive Instr where
  /-- COLD_RESET: power-on or the reset pin, with what the station-address strap reads (R194). -/
  | coldReset (strap : Addr)
  /-- FRAME_LOST: a frame arrives at a port; it is lost where the port already holds 64 received frames,
  and otherwise received (R178, DESIGN CHOICE log 3). -/
  | frameLost (port : Port) (etherType : BitVec 16) (payload : List Byte)
  /-- NON_DIALOGUE_FRAME: a received frame of another Ethernet type (R178). -/
  | nonDialogueFrame (port : Port) (etherType : BitVec 16) (payload : List Byte)
  /-- UNRECOGNISED_KIND: a dialogue frame of an unknown kind, of a kind directors originate, broadcast, or
  marked as a director's; and a COMMAND that names no command or no action (R179, R181, R185, DESIGN CHOICE log 26). -/
  | unrecognisedKind (kind : Byte) (f : Frame)
  /-- MALFORMED_FRAME: a dialogue frame that fails the header checks (R179). -/
  | malformedFrame (port : Port) (payload : List Byte)
  /-- FRAME_TRANSMIT: a port sends its next frame (R178). -/
  | frameTransmit (port : Port)
  /-- WORK_REQUEST: a handler asks for work (R64). -/
  | workRequest (f : Frame)
  /-- PROGRAM_READY: a tester reports its loaded program (R88). -/
  | programReady (f : Frame)
  /-- LOAD_ABORT, from a tester or from the file server (R89). -/
  | loadAbort (f : Frame)
  /-- LOAD_SEGMENT: a segment passes from the file server to a tester (R87). -/
  | loadSegment (f : Frame)
  /-- TD_RESULT: a touchdown's results (R99). -/
  | tdResult (f : Frame)
  /-- STOPPED: a handler has stopped (R50). -/
  | stopped (f : Frame)
  /-- UNLOADED: a handler has the lot off the cell (R53). -/
  | unloaded (f : Frame)
  /-- LOT_END: a handler has finished a pass of its lot (R160). -/
  | lotEnd (f : Frame)
  /-- CORR_RESULT: a golden unit's bin (R130). -/
  | corrResult (f : Frame)
  /-- CORR_END: a tester has ended a correlation run (R131). -/
  | corrEnd (f : Frame)
  /-- QA_RESULT: a QA station's sample (R168). -/
  | qaResult (f : Frame)
  /-- SHIP_REQUEST: the dock asks for a lot (R173). -/
  | shipRequest (f : Frame)
  /-- LOT_ENTER (R9, R10). -/
  | lotEnter (f : Frame)
  /-- LOT_PRIORITY (R13). -/
  | lotPriority (f : Frame)
  /-- LOT_WITHDRAW (R14). -/
  | lotWithdraw (f : Frame)
  /-- LOT_QUERY (R16). -/
  | lotQuery (f : Frame)
  /-- QUEUE_READ (R17). -/
  | queueRead (f : Frame)
  /-- PRODUCT_WRITE (R21). -/
  | productWrite (f : Frame)
  /-- PRODUCT_DELETE (R23). -/
  | productDelete (f : Frame)
  /-- PROGRAM_WRITE (R25). -/
  | programWrite (f : Frame)
  /-- PROGRAM_DELETE (R26). -/
  | programDelete (f : Frame)
  /-- PLAN_WRITE (R27). -/
  | planWrite (f : Frame)
  /-- GROUP_WRITE (R29). -/
  | groupWrite (f : Frame)
  /-- GOLDEN_WRITE (R32). -/
  | goldenWrite (f : Frame)
  /-- OFFSET_WRITE (R33). -/
  | offsetWrite (f : Frame)
  /-- TABLE_READ (R35). -/
  | tableRead (f : Frame)
  /-- CELL_SET with action CONFIGURE (R41, R42). -/
  | cellSetConfigure (f : Frame)
  /-- CELL_SET with action ENABLE (R43). -/
  | cellSetEnable (f : Frame)
  /-- CELL_SET with action DISABLE (R44). -/
  | cellSetDisable (f : Frame)
  /-- CELL_SET with action SITE_RESTORE (R47). -/
  | cellSetSiteRestore (f : Frame)
  /-- CELL_SET with action RESUME (R59). -/
  | cellSetResume (f : Frame)
  /-- CELL_SET with action BLOCK_END (R80). -/
  | cellSetBlockEnd (f : Frame)
  /-- CELL_SET with action COVER_END (R136). -/
  | cellSetCoverEnd (f : Frame)
  /-- The UNLOAD director command (R58). -/
  | unload (f : Frame)
  /-- CELL_QUERY (R60). -/
  | cellQuery (f : Frame)
  /-- ASSIGN_NEXT (R65). -/
  | assignNext (f : Frame)
  /-- REQUEST_CLEAR (R66). -/
  | requestClear (f : Frame)
  /-- CORRELATE_NOW (R137). -/
  | correlateNow (f : Frame)
  /-- HOLD_PLACE (R142). -/
  | holdPlace (f : Frame)
  /-- HOLD_RELEASE naming a hold id 1..65535 (R150). -/
  | holdRelease (f : Frame)
  /-- HOLD_RELEASE with hold id 0 (R151). -/
  | holdReleaseOverflow (f : Frame)
  /-- HOLD_SWEEP (R154). -/
  | holdSweep (f : Frame)
  /-- STATION_WRITE (R183). -/
  | stationWrite (f : Frame)
  /-- STATION_DELETE (R184). -/
  | stationDelete (f : Frame)
  /-- STATION_READ (R189). -/
  | stationRead (f : Frame)
  /-- LINK_WRITE (R189). -/
  | linkWrite (f : Frame)
  /-- LINK_READ (R189). -/
  | linkRead (f : Frame)
  /-- TIME_SET (R191). -/
  | timeSet (f : Frame)
  /-- WARM_RESET (R195). -/
  | warmReset (f : Frame)
  /-- COMMISSION_END (R193). -/
  | commissionEnd (f : Frame)
  /-- COUNTERS_READ without the clear indication (R188). -/
  | countersRead (f : Frame)
  /-- COUNTERS_READ with the clear indication (R188). -/
  | countersReadClear (f : Frame)
  /-- SWEEP_STEP: one step of the running hold sweep (R155). -/
  | sweepStep
  /-- AGING_EXPIRY of the lot in a slot (R12). -/
  | agingExpiry (slot : SlotId)
  /-- BLOCK_WAIT_EXPIRY of a cell (R79). -/
  | blockWaitExpiry (cell : CellId)
  /-- LOAD_DEADLINE_EXPIRY of a cell (R90). -/
  | loadDeadlineExpiry (cell : CellId)
  /-- TOUCHDOWN_DEADLINE_EXPIRY of a cell (R56). -/
  | touchdownDeadlineExpiry (cell : CellId)
  /-- UNLOAD_DEADLINE_EXPIRY of a cell (R54). -/
  | unloadDeadlineExpiry (cell : CellId)
  /-- CORRELATION_DEADLINE_EXPIRY of a cell (R131). -/
  | correlationDeadlineExpiry (cell : CellId)
deriving DecidableEq, Repr

end Sys2Proof
end

