-- ==== Sys2Proof/Decode.lean ====
section
/-! DEFINITION. Bytes and commands: the codes of frame kinds, director commands and CELL_SET actions
(R182), the dialogue header (Table 10-1), the bytes of a command's frame, the command that a received
frame's bytes spell, and the host's `decodeTableWord`. -/

namespace Sys2Proof

/-- A frame kind's byte: its position in Table 10-3, counted from 1 (R182). -/
def kindCode : Kind → Nat
  | .workRequest => 1
  | .programReady => 2
  | .loadAbort => 3
  | .tdResult => 4
  | .stopped => 5
  | .unloaded => 6
  | .lotEnd => 7
  | .corrResult => 8
  | .corrEnd => 9
  | .loadSegment => 10
  | .qaResult => 11
  | .shipRequest => 12
  | .command => 13
  | .start => 14
  | .stop => 15
  | .resume => 16
  | .retest => 17
  | .unload => 18
  | .correlate => 19
  | .programFetch => 20
  | .answer => 21
  | .notice => 22

/-- A director command's byte: its position in Table 10-5, counted from 1 (R182). -/
def commandCode : Command → Nat
  | .productWrite => 1
  | .productDelete => 2
  | .programWrite => 3
  | .programDelete => 4
  | .planWrite => 5
  | .groupWrite => 6
  | .goldenWrite => 7
  | .stationWrite => 8
  | .stationDelete => 9
  | .linkWrite => 10
  | .timeSet => 11
  | .warmReset => 12
  | .commissionEnd => 13
  | .offsetWrite => 14
  | .cellSet => 15
  | .unload => 16
  | .correlateNow => 17
  | .lotWithdraw => 18
  | .countersRead => 19
  | .lotEnter => 20
  | .lotPriority => 21
  | .assignNext => 22
  | .requestClear => 23
  | .holdPlace => 24
  | .holdRelease => 25
  | .holdSweep => 26
  | .lotQuery => 27
  | .queueRead => 28
  | .tableRead => 29
  | .cellQuery => 30
  | .stationRead => 31
  | .linkRead => 32

/-- A CELL_SET action's byte: its position in Table 3-5, counted from 1 (R182). -/
def actionCode : CellAction → Nat
  | .configure => 1
  | .enable => 2
  | .disable => 3
  | .siteRestore => 4
  | .resume => 5
  | .blockEnd => 6
  | .coverEnd => 7

/-- The most significant byte of a 16-bit field, then the least (section 10.2). -/
def wordBytes (w : BitVec 16) : List Byte := [w.extractLsb' 8 8, w.extractLsb' 0 8]

/-- The byte of a payload at an offset; 0 beyond its end. -/
def byteAt (payload : List Byte) (i : Nat) : Byte := payload.getD i 0

/-- The 16-bit field of a payload at an offset, most significant byte first (section 10.2). -/
def wordAt (payload : List Byte) (i : Nat) : BitVec 16 := byteAt payload i ++ byteAt payload (i + 1)

/-- The 28 header bytes of Table 10-1 for a kind byte and a body length. -/
def headerBytes (h : Header) (kind : Byte) (bodyLength : Nat) : List Byte :=
  h.version :: kind :: (wordBytes h.dst ++ wordBytes h.src ++ [h.level, h.flags] ++ wordBytes h.tag
    ++ h.lot.toList ++ wordBytes (BitVec.ofNat 16 bodyLength))

/-- The header a payload carries (Table 10-1). -/
def headerOf (payload : List Byte) : Header where
  version := byteAt payload 0
  dst     := wordAt payload 2
  src     := wordAt payload 4
  level   := byteAt payload 6
  flags   := byteAt payload 7
  tag     := wordAt payload 8
  lot     := Vector.ofFn fun i : Fin 16 => byteAt payload (10 + i.val)

/-- The body length a payload's header gives. -/
def bodyLengthOf (payload : List Byte) : Nat := (wordAt payload 26).toNat

/-- Checks 2 to 4 of R179: the header's version is not 2, one of flag bits 1 to 7 is set, or a station
address is 0. -/
def headerBad (h : Header) : Bool :=
  h.version != 2 || h.flags &&& 0xFE != 0 || h.src == 0 || h.dst == 0

/-- Checks 5 and 6 of R179: the frame is marked as a director's, or is a broadcast. -/
def headerPassesBy (h : Header) : Bool :=
  h.flags &&& 1 == 1 || h.dst == 65535

/-- Checks 1 to 4 of R179 on a payload. -/
def payloadBad (payload : List Byte) : Bool :=
  decide (payload.length < 28) || decide (payload.length < 28 + bodyLengthOf payload)
    || headerBad (headerOf payload)

/-- The payload of a frame of a given kind byte; `lead` is the command byte and action byte, if any. -/
def framePayload (kind : Byte) (lead : List Byte) (f : Frame) : List Byte :=
  headerBytes f.hdr kind (lead.length + f.body.length) ++ lead ++ f.body ++ f.pad

/-- A kind as the byte a header carries. -/
def kindByte (k : Kind) : Byte := BitVec.ofNat 8 (kindCode k)

/-- The body bytes that name a director command. -/
def commandLead (c : Command) : List Byte := [BitVec.ofNat 8 (commandCode c)]

/-- The body bytes that name a CELL_SET action. -/
def cellSetLead (a : CellAction) : List Byte :=
  [BitVec.ofNat 8 (commandCode .cellSet), BitVec.ofNat 8 (actionCode a)]

/-- The kind byte, the naming bytes and the frame of the rows that are one dialogue frame. -/
def frameRow? : Instr → Option (Byte × List Byte × Frame)
  | .unrecognisedKind k f => some (k, [], f)
  | .workRequest f => some (kindByte .workRequest, [], f)
  | .programReady f => some (kindByte .programReady, [], f)
  | .loadAbort f => some (kindByte .loadAbort, [], f)
  | .loadSegment f => some (kindByte .loadSegment, [], f)
  | .tdResult f => some (kindByte .tdResult, [], f)
  | .stopped f => some (kindByte .stopped, [], f)
  | .unloaded f => some (kindByte .unloaded, [], f)
  | .lotEnd f => some (kindByte .lotEnd, [], f)
  | .corrResult f => some (kindByte .corrResult, [], f)
  | .corrEnd f => some (kindByte .corrEnd, [], f)
  | .qaResult f => some (kindByte .qaResult, [], f)
  | .shipRequest f => some (kindByte .shipRequest, [], f)
  | .lotEnter f => some (kindByte .command, commandLead .lotEnter, f)
  | .lotPriority f => some (kindByte .command, commandLead .lotPriority, f)
  | .lotWithdraw f => some (kindByte .command, commandLead .lotWithdraw, f)
  | .lotQuery f => some (kindByte .command, commandLead .lotQuery, f)
  | .queueRead f => some (kindByte .command, commandLead .queueRead, f)
  | .productWrite f => some (kindByte .command, commandLead .productWrite, f)
  | .productDelete f => some (kindByte .command, commandLead .productDelete, f)
  | .programWrite f => some (kindByte .command, commandLead .programWrite, f)
  | .programDelete f => some (kindByte .command, commandLead .programDelete, f)
  | .planWrite f => some (kindByte .command, commandLead .planWrite, f)
  | .groupWrite f => some (kindByte .command, commandLead .groupWrite, f)
  | .goldenWrite f => some (kindByte .command, commandLead .goldenWrite, f)
  | .offsetWrite f => some (kindByte .command, commandLead .offsetWrite, f)
  | .tableRead f => some (kindByte .command, commandLead .tableRead, f)
  | .unload f => some (kindByte .command, commandLead .unload, f)
  | .cellQuery f => some (kindByte .command, commandLead .cellQuery, f)
  | .assignNext f => some (kindByte .command, commandLead .assignNext, f)
  | .requestClear f => some (kindByte .command, commandLead .requestClear, f)
  | .correlateNow f => some (kindByte .command, commandLead .correlateNow, f)
  | .holdPlace f => some (kindByte .command, commandLead .holdPlace, f)
  | .holdRelease f => some (kindByte .command, commandLead .holdRelease, f)
  | .holdSweep f => some (kindByte .command, commandLead .holdSweep, f)
  | .stationWrite f => some (kindByte .command, commandLead .stationWrite, f)
  | .stationDelete f => some (kindByte .command, commandLead .stationDelete, f)
  | .stationRead f => some (kindByte .command, commandLead .stationRead, f)
  | .linkWrite f => some (kindByte .command, commandLead .linkWrite, f)
  | .linkRead f => some (kindByte .command, commandLead .linkRead, f)
  | .timeSet f => some (kindByte .command, commandLead .timeSet, f)
  | .warmReset f => some (kindByte .command, commandLead .warmReset, f)
  | .commissionEnd f => some (kindByte .command, commandLead .commissionEnd, f)
  | .countersRead f => some (kindByte .command, commandLead .countersRead, f)
  | .holdReleaseOverflow f => some (kindByte .command, commandLead .holdRelease, f)
  | .countersReadClear f => some (kindByte .command, commandLead .countersRead, f)
  | .cellSetConfigure f => some (kindByte .command, cellSetLead .configure, f)
  | .cellSetEnable f => some (kindByte .command, cellSetLead .enable, f)
  | .cellSetDisable f => some (kindByte .command, cellSetLead .disable, f)
  | .cellSetSiteRestore f => some (kindByte .command, cellSetLead .siteRestore, f)
  | .cellSetResume f => some (kindByte .command, cellSetLead .resume, f)
  | .cellSetBlockEnd f => some (kindByte .command, cellSetLead .blockEnd, f)
  | .cellSetCoverEnd f => some (kindByte .command, cellSetLead .coverEnd, f)
  | .coldReset .. => none
  | .frameLost .. => none
  | .nonDialogueFrame .. => none
  | .malformedFrame .. => none
  | .frameTransmit .. => none
  | .agingExpiry .. => none
  | .blockWaitExpiry .. => none
  | .loadDeadlineExpiry .. => none
  | .touchdownDeadlineExpiry .. => none
  | .unloadDeadlineExpiry .. => none
  | .correlationDeadlineExpiry .. => none
  | .sweepStep => none

/-- The encoder: the port, Ethernet type and payload of the frame a command is, where it is a frame
received at a port. `dialogueType` is the frame type of the link configuration (R178). -/
def encode (dialogueType : BitVec 16) (i : Instr) : Option (Port × BitVec 16 × List Byte) :=
  match frameRow? i with
  | some (k, lead, f) => some (f.port, f.etherType, framePayload k lead f)
  | none =>
    match i with
    | .nonDialogueFrame p t payload => some (p, t, payload)
    | .malformedFrame p payload => some (p, dialogueType, payload)
    | _ => none

/-- The CELL_SET row an action byte names (Table 3-5). `f` is the frame with its body after the action
byte, `whole` the frame with its whole body. -/
def ofAction (action : Nat) (f whole : Frame) : Instr :=
  match action with
  | 1 => .cellSetConfigure f
  | 2 => .cellSetEnable f
  | 3 => .cellSetDisable f
  | 4 => .cellSetSiteRestore f
  | 5 => .cellSetResume f
  | 6 => .cellSetBlockEnd f
  | 7 => .cellSetCoverEnd f
  | _ => .unrecognisedKind (kindByte .command) whole

/-- The row a COMMAND frame's command byte names (Table 10-5); `f` is the frame with its body after the
command byte, `whole` the frame with its whole body. A body that names no command or no action is a row
of its own (DESIGN CHOICE log 26). -/
def ofCommand (command : Nat) (f whole : Frame) : Instr :=
  match command with
  | 1 => .productWrite f
  | 2 => .productDelete f
  | 3 => .programWrite f
  | 4 => .programDelete f
  | 5 => .planWrite f
  | 6 => .groupWrite f
  | 7 => .goldenWrite f
  | 8 => .stationWrite f
  | 9 => .stationDelete f
  | 10 => .linkWrite f
  | 11 => .timeSet f
  | 12 => .warmReset f
  | 13 => .commissionEnd f
  | 14 => .offsetWrite f
  | 15 =>
    match f.body with
    | [] => .unrecognisedKind (kindByte .command) whole
    | a :: rest => ofAction a.toNat (Frame.mk f.port f.etherType f.hdr rest f.pad f.heardAs) whole
  | 16 => .unload f
  | 17 => .correlateNow f
  | 18 => .lotWithdraw f
  | 19 => if f.body = [1] then .countersReadClear f else .countersRead f
  | 20 => .lotEnter f
  | 21 => .lotPriority f
  | 22 => .assignNext f
  | 23 => .requestClear f
  | 24 => .holdPlace f
  | 25 => if f.body = [0, 0] then .holdReleaseOverflow f else .holdRelease f
  | 26 => .holdSweep f
  | 27 => .lotQuery f
  | 28 => .queueRead f
  | 29 => .tableRead f
  | 30 => .cellQuery f
  | 31 => .stationRead f
  | 32 => .linkRead f
  | _ => .unrecognisedKind (kindByte .command) whole

/-- The row a dialogue frame's kind byte names (Table 10-3). -/
def ofKind (kind : Byte) (f : Frame) : Instr :=
  match kind.toNat with
  | 1 => .workRequest f
  | 2 => .programReady f
  | 3 => .loadAbort f
  | 4 => .tdResult f
  | 5 => .stopped f
  | 6 => .unloaded f
  | 7 => .lotEnd f
  | 8 => .corrResult f
  | 9 => .corrEnd f
  | 10 => .loadSegment f
  | 11 => .qaResult f
  | 12 => .shipRequest f
  | 13 =>
    match f.body with
    | [] => .unrecognisedKind kind f
    | c :: rest => ofCommand c.toNat (Frame.mk f.port f.etherType f.hdr rest f.pad f.heardAs) f
  | _ => .unrecognisedKind kind f

/-- The command that the bytes of a received frame spell: by Ethernet type (R178), the header checks
(R179) and the kind, command and action bytes (R182). `heardAs` is put into the frame. -/
def ofWire (heardAs : Option Addr) (dialogueType : BitVec 16) (port : Port) (etherType : BitVec 16)
    (payload : List Byte) : Instr :=
  if etherType ≠ dialogueType then .nonDialogueFrame port etherType payload
  else if payloadBad payload then .malformedFrame port payload
  else
    let after := payload.drop 28
    let h := headerOf payload
    let f := Frame.mk port etherType h (after.take (bodyLengthOf payload)) (after.drop (bodyLengthOf payload)) heardAs
    if headerPassesBy h then .unrecognisedKind (byteAt payload 1) f
    else ofKind (byteAt payload 1) f

/-- The host's question about a word of the opcode table. No row of spec/opcode_table.json gives bits, so
no word spells a command (DEDUCED log 28). -/
def decodeTableWord (_nbits _w : Nat) : Option Instr := none

end Sys2Proof
end

