-- ==== Sys2Proof/WellFormed.lean ====
section
/-! DEFINITION. What a command must be for its row to be the one its bytes spell: the checks a sender's
frame of that row meets. The machine runs every command, well-formed or not; these checks say which
commands the bytes on a port can be. -/

namespace Sys2Proof

/-- A body with its naming bytes fits the header's 16-bit body length (Table 10-1). -/
def bodyFits (lead : List Byte) (f : Frame) : Bool := decide (lead.length + f.body.length < 65536)

/-- A dialogue frame of the link configuration's frame type that passes checks 2 to 4 of R179. -/
def frameFits (dialogueType : BitVec 16) (lead : List Byte) (f : Frame) : Bool :=
  f.etherType == dialogueType && bodyFits lead f && !headerBad f.hdr

/-- A frame with a row of its own also passes checks 5 and 6 of R179. -/
def rowFits (dialogueType : BitVec 16) (lead : List Byte) (f : Frame) : Bool :=
  frameFits dialogueType lead f && !headerPassesBy f.hdr

/-- A command is one that a received frame's bytes spell, or no frame at all. -/
def wellFormed (dialogueType : BitVec 16) (i : Instr) : Bool :=
  match i with
  | .nonDialogueFrame _ t _ => t != dialogueType
  | .malformedFrame _ payload => payloadBad payload
  | .unrecognisedKind k f =>
    frameFits dialogueType [] f && (headerPassesBy f.hdr || ofKind k f == .unrecognisedKind k f)
  | .holdRelease f => rowFits dialogueType (commandLead .holdRelease) f && f.body != [0, 0]
  | .holdReleaseOverflow f => rowFits dialogueType (commandLead .holdRelease) f && f.body == [0, 0]
  | .countersRead f => rowFits dialogueType (commandLead .countersRead) f && f.body != [1]
  | .countersReadClear f => rowFits dialogueType (commandLead .countersRead) f && f.body == [1]
  | _ =>
    match frameRow? i with
    | some (_, lead, f) => rowFits dialogueType lead f
    | none => true

end Sys2Proof
end

