-- ==== Sys2Proof/Machine/State.lean ====
section
/-! DEFINITION. The director's state as plain data: every table, record, queue, counter and pin of
Chapters 1 to 10, and the state after a cold reset. -/

namespace Sys2Proof.Machine

open Sys2Proof

/-! ## Names -/

/-- Lot states, in the order of Table 1-2. -/
inductive LotState where
  | queued | assigned | testing | stopping | paused | unloading | held | tested | released | empty
deriving DecidableEq, Repr

/-- Cell states, in the order of Table 3-3. -/
inductive CellState where
  | offline | idle | loading | running | stalled | stopping | paused | unloading | correlating | down
deriving DecidableEq, Repr

/-- Down reasons, in the order of Table 3-2. -/
inductive DownReason where
  | loadFailed | corrFailed | unloadLost
deriving DecidableEq, Repr

/-- Exit intents (R48). -/
inductive Intent where
  | none | pause | unload
deriving DecidableEq, Repr

/-- Cell modes (Table 3-1). -/
inductive CellMode where
  | single | successive | block
deriving DecidableEq, Repr

/-- Request sources (Table 3-1). -/
inductive RequestSource where
  | handler | floor | either
deriving DecidableEq, Repr

/-- Qualifications, in the order of Table 3-2 and Table 7-1. -/
inductive Qualification where
  | unqualified | qualified | soaking | due | suspect
deriving DecidableEq, Repr

/-- Hold kinds (Table 8-1). -/
inductive HoldKind where
  | blocking | advisory
deriving DecidableEq, Repr

/-- Who placed a hold: a station, or the director itself (Table 8-1). -/
inductive HoldOrigin where
  | station (address : Addr)
  | auto
deriving DecidableEq, Repr

/-- QA verdicts, in the order R168 lists them. -/
inductive Verdict where
  | short | rejected | accepted
deriving DecidableEq, Repr

/-- Reconciliation values, in the order of R165. -/
inductive Reconciled where
  | matched | mismatched
deriving DecidableEq, Repr

/-- Station roles, in the order of Table 10-4. -/
inductive Role where
  | floor | engineering | supervisor | console | tester | handler | fileServer | qa | dock
deriving DecidableEq, Repr

/-- Operating modes (R192). -/
inductive OperatingMode where
  | commissioning | operating
deriving DecidableEq, Repr

/-- Outcomes of a load attempt, in the order of Table 5-2. -/
inductive LoadOutcome where
  | done | short | mismatch | aborted | timeout
deriving DecidableEq, Repr

/-- Consequences of a load attempt's end, in the order of R91. -/
inductive LoadConsequence where
  | start | idle | retry | down
deriving DecidableEq, Repr

/-- How a correlation run ended, in the order of R132. -/
inductive RunEnd where
  | corrEnd | timeout
deriving DecidableEq, Repr

/-- Ends of a sweep, in the order of R156. -/
inductive SweepEnd where
  | finished | count | refused
deriving DecidableEq, Repr

/-- Ship outcomes, in the order of Table 9-3. -/
inductive ShipOutcome where
  | granted | held | notReady | listEmpty | unknownLot
deriving DecidableEq, Repr

/-- Answer codes, in the order of R186. -/
inductive AnswerCode where
  | ok | authority | unknownStation | unknownLot | unknownProduct | unknownProgram | badState | busy
  | inUse | full | duplicate | malformed
deriving DecidableEq, Repr

/-- Notice kinds, in the order of Table 10-6. -/
inductive NoticeKind where
  | lotState | cellState | holdPlaced | holdRemoved | loadOutcome | corrOutcome | siteDisabled
  | released | shipped
deriving DecidableEq, Repr

/-- The six discard counters, in the order of Table 10-7. -/
inductive Counter where
  | unknownStation | badState | late | duplicateTd | siteInactive | malformed
deriving DecidableEq, Repr

/-- Automatic hold reasons, in the order of Table 8-2. -/
inductive AutoReason where
  | lowYield | binLimit | overcount | reconcile | unitLoss | qaShort | qaReject | cellSuspect | material
deriving DecidableEq, Repr

/-- The stations of a cell that a frame may come from (R38). -/
inductive EquipmentSide where
  | tester | handler
deriving DecidableEq, Repr

/-! ## Records of the configuration tables (Chapter 2) -/

/-- A program's name: identifier and version (section 0.5). -/
structure ProgramName where
  ident   : ProgramIdent
  version : Nat
deriving DecidableEq, Repr

/-- A program library entry (section 2.3). -/
structure Program where
  name     : ProgramName
  segments : Nat
deriving DecidableEq, Repr

/-- A tier of a sampling plan (section 2.4). -/
structure Tier where
  maxLot : Nat
  sample : Nat
  accept : Nat
deriving DecidableEq, Repr

/-- A product table entry (Table 2-2). -/
structure Product where
  ident          : ProductIdent
  program        : ProgramName
  testerClass    : Fin 8
  kit            : Fin 16
  passBins       : BinSet
  retestBins     : BinSet
  maxRetest      : Nat
  minSample      : Nat
  yieldFloor     : Nat
  binLimits      : Vector (Option Nat) 16
  expectedYield  : Nat
  driftFloor     : Nat
  failRunLimit   : Nat
  minActive      : Nat
  tdTimeout      : Nat
  lossAllowance  : Nat
  plan           : PlanId
  autoLevels     : Vector Level 8
  inUse          : Nat
deriving DecidableEq, Repr

/-- A golden unit: serial and expected bin (section 2.5). -/
structure Golden where
  serial : Nat
  bin    : Bin
deriving DecidableEq, Repr

/-- A group table entry (Table 2-5). -/
structure Group where
  standby         : Option CellId
  iirCode         : Nat
  golden          : List Golden
  allowed         : Nat
  corrInterval    : Nat
  corrTimeout     : Nat
  loadTimeout     : Nat
  unloadTimeout   : Nat
  loadRetries     : Nat
  blockWait       : Nat
deriving DecidableEq, Repr

/-- An entry of the correlation offset map: its key and its value (section 2.6). -/
structure Offset where
  cell    : CellId
  product : ProductId
  value   : Int
deriving DecidableEq, Repr

/-! ## Lot records (Chapters 1, 8, 9) -/

/-- A hold record (Table 8-1). -/
structure Hold where
  id     : Nat
  reason : Nat
  kind   : HoldKind
  level  : Level
  origin : HoldOrigin
  placed : Nat
deriving DecidableEq, Repr

/-- A reconciliation with the counts the handler reported (R165). -/
structure Reconciliation where
  value     : Reconciled
  goodOut   : Nat
  rejectOut : Nat
deriving DecidableEq, Repr

/-- A QA record (R168). -/
structure QaRecord where
  sample  : Nat
  rejects : Nat
  verdict : Verdict
deriving DecidableEq, Repr

/-- A lot record (Table 1-1). -/
structure Lot where
  ident         : LotIdent
  product       : ProductId
  startQty      : Nat
  priority      : Fin 4
  entrySeq      : Nat
  entryTime     : Nat
  queueTime     : Nat
  lastPromotion : Nat
  agingStart    : Nat
  state         : LotState
  cell          : Option CellId
  lastCell      : Option CellId
  pass          : Nat
  bins          : Vector Nat 16
  pool          : Nat
  tested        : Nat
  lastTd        : Nat
  holds         : List Hold
  overflow      : Bool
  recon         : Option Reconciliation
  qa            : Option QaRecord
  releaseTime   : Option Nat
deriving DecidableEq, Repr

/-! ## Cell records (Chapters 3 to 7) -/

/-- A load record (Table 5-1). -/
structure LoadRecord where
  program  : ProgramName
  expected : Nat
  seen     : Nat
  attempts : Nat
  deadline : Nat
  lot      : Option SlotId
deriving DecidableEq, Repr

/-- One entry of a correlation run's result list: serial and reported code (section 7.4). -/
structure GoldenResult where
  serial : Nat
  code   : Nat
deriving DecidableEq, Repr

/-- A correlation run record (section 7.4). -/
structure RunRecord where
  results  : List GoldenResult
  deadline : Nat
deriving DecidableEq, Repr

/-- A cell record: configuration fields (Table 3-1), then run fields (Table 3-2). -/
structure Cell where
  tester         : Option Addr
  handler        : Option Addr
  group          : GroupId
  testerClass    : Fin 8
  kit            : Fin 16
  siteCount      : Nat
  mode           : CellMode
  blockCode      : Fin 16
  source         : RequestSource
  state          : CellState
  downReason     : Option DownReason
  intent         : Intent
  lot            : Option SlotId
  lastProduct    : Option ProductId
  loaded         : Option ProgramName
  latch          : Bool
  latchTime      : Nat
  reserved       : Option ProductId
  blockRemaining : Nat
  blockDeadline  : Option Nat
  installed      : SiteSet
  active         : SiteSet
  failRuns       : Vector Nat 16
  average        : Nat
  soak           : Nat
  sinceCorr      : Nat
  tdDeadline     : Option Nat
  unloadDeadline : Option Nat
  load           : Option LoadRecord
  run            : Option RunRecord
  actingFor      : Option CellId
  qual           : Qualification
deriving DecidableEq, Repr

/-! ## Link Unit (Chapter 10) -/

/-- A station table entry (Table 10-4). -/
structure Station where
  address : Addr
  role    : Role
  level   : Level
  side    : Port
  cell    : Option CellId
deriving DecidableEq, Repr

/-- The link configuration (section 10.8). -/
structure LinkConfig where
  own       : Addr
  frameType : BitVec 16
  notice    : Option Addr
  aging     : Nat
deriving DecidableEq, Repr

/-- The six discard counters (R188). -/
structure Counters where
  unknownStation : Nat
  badState       : Nat
  late           : Nat
  duplicateTd    : Nat
  siteInactive   : Nat
  malformed      : Nat
deriving DecidableEq, Repr

/-- A frame on its way out: its Ethernet type and payload bytes. -/
structure OutFrame where
  etherType : BitVec 16
  payload   : List Byte
deriving DecidableEq, Repr

/-- A port (R178): frames received and not yet acted on, frames handed to it and not yet sent, the frame
it sent last, and the model's count of frames ever handed to it, which indexes free values (DESIGN CHOICE log 8). -/
structure PortState where
  rx     : List Instr
  tx     : List OutFrame
  wire   : Option OutFrame
  handed : Nat
deriving DecidableEq, Repr

/-- Where the answer to a request goes: the port it arrived on, its source, its tag and its lot
identifier field (R186). -/
structure Asker where
  port : Port
  addr : Addr
  tag  : BitVec 16
  lot  : LotIdent
deriving DecidableEq, Repr

/-- The sweep state (R154). -/
structure Sweep where
  asker         : Asker
  captured      : Level
  reason        : Nat
  product       : Option ProductId
  origin        : Option HoldOrigin
  next          : Nat
  remaining     : Nat
  stopOnRefusal : Bool
  removed       : Nat
deriving DecidableEq, Repr

/-- What R179, R180 and R192 settle about a received dialogue frame before its kind is looked at. -/
inductive Fate where
  /-- Checks 2 to 4 of R179 fail: counted MALFORMED and discarded. -/
  | discard
  /-- Forwarded and not acted on or counted: R179 checks 5 and 6, and the cell port in COMMISSIONING. -/
  | pass
  /-- From an unknown station and addressed to the director (R180). -/
  | stranger
  /-- From an unknown station and addressed elsewhere (R180). -/
  | strangerPass
  /-- On the floor port in COMMISSIONING, addressed to the director (R192). -/
  | openToDirector
  /-- On the floor port in COMMISSIONING, addressed elsewhere; the station table's entry, if any. -/
  | openAcross (station : Option Station)
  /-- From a known station and addressed to the director (R181). -/
  | toDirector (station : Station)
  /-- From a known station and addressed elsewhere (R181). -/
  | across (station : Station)
deriving DecidableEq, Repr

/-! ## The machine -/

/-- The director's state. -/
structure State where
  cellPort     : PortState
  floorPort    : PortState
  strap        : Addr
  stations     : Vector (Option Station) 64
  link         : LinkConfig
  counters     : Counters
  mono         : Nat
  offset       : Nat
  mode         : OperatingMode
  lots         : Vector (Option Lot) 256
  queue        : List SlotId
  nextSeq      : Nat
  seqExhausted : Bool
  products     : Vector (Option Product) 64
  programs     : Vector (Option Program) 48
  plans        : Vector (Option (List Tier)) 8
  groups       : Vector (Option Group) 8
  offsets      : List Offset
  cells        : Vector Cell 32
  nextHoldId   : Nat
  sweep        : Option Sweep
  releaseList  : List SlotId
  pending      : List Instr
deriving DecidableEq, Repr

/-- The director stops with no fault: a frame it cannot act on is counted (R188) and a request it cannot
take is answered with a code (R186). No meaning raises one. -/
inductive Fault where
deriving DecidableEq, Repr

/-- Why a command has no meaning. -/
inductive Refusal where
  /-- A row of the opcode table whose meaning is not written. Raised by an arm of `exec` alone; safe. -/
  | notModelled (mnemonic : String)
deriving DecidableEq, Repr

/-- A port with nothing received, nothing to send and nothing sent (R194). -/
def PortState.cold : PortState := ⟨[], [], none, 0⟩

/-- A cell as cold reset leaves it (Table 3-1, R61). -/
def Cell.cold : Cell where
  tester := none
  handler := none
  group := 0
  testerClass := 0
  kit := 0
  siteCount := 1
  mode := .single
  blockCode := 0
  source := .handler
  state := .offline
  downReason := none
  intent := .none
  lot := none
  lastProduct := none
  loaded := none
  latch := false
  latchTime := 0
  reserved := none
  blockRemaining := 0
  blockDeadline := none
  installed := 1
  active := 1
  failRuns := Vector.replicate 16 0
  average := 0
  soak := 0
  sinceCorr := 0
  tdDeadline := none
  unloadDeadline := none
  load := none
  run := none
  actingFor := none
  qual := .unqualified

/-- The own station address after cold reset: the strap, or 65534 when it reads 0 or 65535 (R194). -/
def ownFromStrap (strap : Addr) : Addr := if strap = 0 ∨ strap = 65535 then 65534 else strap

/-- The director after a cold reset with the strap reading `strap` (R18, R36, R61, R81, R97, R121, R138,
R158, R176, R194). -/
def State.cold (strap : Addr) : State where
  cellPort := .cold
  floorPort := .cold
  strap := strap
  stations := Vector.replicate 64 none
  link := ⟨ownFromStrap strap, 0x9A41, none, 0⟩
  counters := ⟨0, 0, 0, 0, 0, 0⟩
  mono := 0
  offset := 0
  mode := .commissioning
  lots := Vector.replicate 256 none
  queue := []
  nextSeq := 1
  seqExhausted := false
  products := Vector.replicate 64 none
  programs := Vector.replicate 48 none
  plans := Vector.replicate 8 none
  groups := Vector.replicate 8 none
  offsets := []
  cells := Vector.replicate 32 Cell.cold
  nextHoldId := 1
  sweep := none
  releaseList := []
  pending := []

/-- The machine right after reset: a cold reset whose strap reads 0 (DESIGN CHOICE log 4). -/
def State.reset : State := State.cold 0

end Sys2Proof.Machine
end

