-- ==== Sys2Proof/Machine/Codec.lean ====
section
/-! DEFINITION. The encoding of bodies (R182): the byte of each name, and how numbers, identifiers, sets,
optional fields, flags, origins and lists are written. -/

namespace Sys2Proof.Machine

open Sys2Proof

/-- A lot state's byte (R182, Table 1-2). -/
def lotStateCode : LotState → Nat
  | .queued => 1
  | .assigned => 2
  | .testing => 3
  | .stopping => 4
  | .paused => 5
  | .unloading => 6
  | .held => 7
  | .tested => 8
  | .released => 9
  | .empty => 10

/-- A cell state's byte (R182, Table 3-3). -/
def cellStateCode : CellState → Nat
  | .offline => 1
  | .idle => 2
  | .loading => 3
  | .running => 4
  | .stalled => 5
  | .stopping => 6
  | .paused => 7
  | .unloading => 8
  | .correlating => 9
  | .down => 10

/-- A down reason's byte (R182, Table 3-2). -/
def downReasonCode : DownReason → Nat
  | .loadFailed => 1
  | .corrFailed => 2
  | .unloadLost => 3

/-- An exit intent's byte (R182, R48). -/
def intentCode : Intent → Nat
  | .none => 1
  | .pause => 2
  | .unload => 3

/-- A cell mode's byte (R182, Table 3-1). -/
def modeCode : CellMode → Nat
  | .single => 1
  | .successive => 2
  | .block => 3

/-- A request source's byte (R182, Table 3-1). -/
def sourceCode : RequestSource → Nat
  | .handler => 1
  | .floor => 2
  | .either => 3

/-- A qualification's byte (R182, Table 3-2). -/
def qualCode : Qualification → Nat
  | .unqualified => 1
  | .qualified => 2
  | .soaking => 3
  | .due => 4
  | .suspect => 5

/-- A hold kind's byte (R182, Table 8-1). -/
def holdKindCode : HoldKind → Nat
  | .blocking => 1
  | .advisory => 2

/-- A QA verdict's byte (R182, R168; DESIGN CHOICE log 14). -/
def verdictCode : Verdict → Nat
  | .short => 1
  | .rejected => 2
  | .accepted => 3

/-- A reconciliation value's byte (R182, R165). -/
def reconciledCode : Reconciled → Nat
  | .matched => 1
  | .mismatched => 2

/-- A station role's byte (R182, Table 10-4). -/
def roleCode : Role → Nat
  | .floor => 1
  | .engineering => 2
  | .supervisor => 3
  | .console => 4
  | .tester => 5
  | .handler => 6
  | .fileServer => 7
  | .qa => 8
  | .dock => 9

/-- A side's byte (R182, Table 10-4). -/
def sideCode : Port → Nat
  | .cell => 1
  | .floor => 2

/-- An operating mode's byte (R182). -/
def operatingModeCode : OperatingMode → Nat
  | .commissioning => 1
  | .operating => 2

/-- A load outcome's byte (R182, Table 5-2). -/
def loadOutcomeCode : LoadOutcome → Nat
  | .done => 1
  | .short => 2
  | .mismatch => 3
  | .aborted => 4
  | .timeout => 5

/-- A load consequence's byte (R182, R91). -/
def consequenceCode : LoadConsequence → Nat
  | .start => 1
  | .idle => 2
  | .retry => 3
  | .down => 4

/-- The byte of a correlation run's end (R182, R132). -/
def runEndCode : RunEnd → Nat
  | .corrEnd => 1
  | .timeout => 2

/-- The byte of a sweep's end (R182, R156). -/
def sweepEndCode : SweepEnd → Nat
  | .finished => 1
  | .count => 2
  | .refused => 3

/-- A ship outcome's byte (R182, Table 9-3; DESIGN CHOICE log 14). -/
def shipOutcomeCode : ShipOutcome → Nat
  | .granted => 1
  | .held => 2
  | .notReady => 3
  | .listEmpty => 4
  | .unknownLot => 5

/-- An answer code's byte (R182, R186). -/
def answerCode : AnswerCode → Nat
  | .ok => 1
  | .authority => 2
  | .unknownStation => 3
  | .unknownLot => 4
  | .unknownProduct => 5
  | .unknownProgram => 6
  | .badState => 7
  | .busy => 8
  | .inUse => 9
  | .full => 10
  | .duplicate => 11
  | .malformed => 12

/-- A notice kind's byte (R182, Table 10-6). -/
def noticeCode : NoticeKind → Nat
  | .lotState => 1
  | .cellState => 2
  | .holdPlaced => 3
  | .holdRemoved => 4
  | .loadOutcome => 5
  | .corrOutcome => 6
  | .siteDisabled => 7
  | .released => 8
  | .shipped => 9

/-- An automatic reason's code (Table 8-2). -/
def autoReasonCode : AutoReason → Nat
  | .lowYield => 128
  | .binLimit => 129
  | .overcount => 130
  | .reconcile => 131
  | .unitLoss => 132
  | .qaShort => 133
  | .qaReject => 134
  | .cellSuspect => 135
  | .material => 136

/-! ## Writing -/

/-- A number in a given count of bytes, most significant first (section 10.2, R182). -/
def num : Nat → Nat → List Byte
  | 0, _ => []
  | width + 1, n => BitVec.ofNat 8 (n / 256 ^ width) :: num width n

/-- A signed number in two bytes, in two's complement (R182). -/
def signed (i : Int) : List Byte := num 2 (i % 65536).toNat

/-- A name's byte (R182). -/
def name (code : Nat) : List Byte := [BitVec.ofNat 8 code]

/-- A yes-or-no indication (R182). -/
def flag (b : Bool) : List Byte := [if b then 1 else 0]

/-- A station address, or a set of sites or bins: 16 bits in two bytes (R182). -/
def word16 (w : BitVec 16) : List Byte := wordBytes w

/-- An optional field of a fixed width (R182). -/
def opt {α : Type} (width : Nat) (write : α → List Byte) : Option α → List Byte
  | some a => 1 :: write a
  | none => 0 :: List.replicate width 0

/-- A list: its element count in one byte, then the elements (R182). -/
def listOf {α : Type} (write : α → List Byte) (xs : List α) : List Byte :=
  BitVec.ofNat 8 xs.length :: xs.flatMap write

/-- A numbered resource (cell, slot, group ...) as a number of two bytes (R182). -/
def index {n : Nat} (i : Fin n) : List Byte := num 2 i.val

/-- A hold origin (R182). -/
def originBytes : HoldOrigin → List Byte
  | .station a => 1 :: word16 a
  | .auto => [2, 0, 0]

/-- A program's identifier and version (R182). -/
def programBytes (p : ProgramName) : List Byte := p.ident.toList ++ num 2 p.version

/-- A hold record in the order of Table 8-1 (R182). -/
def holdBytes (h : Hold) : List Byte :=
  num 2 h.id ++ name h.reason ++ name (holdKindCode h.kind) ++ index h.level ++ originBytes h.origin ++ num 4 h.placed

/-- A tier of a sampling plan (section 2.4, R182). -/
def tierBytes (t : Tier) : List Byte := num 2 t.maxLot ++ num 2 t.sample ++ num 2 t.accept

/-- A golden unit (section 2.5, R182). -/
def goldenBytes (g : Golden) : List Byte := num 2 g.serial ++ index g.bin

/-- The fields of Table 2-2 that PRODUCT_WRITE carries, in its order; the sixteen bin limits as sixteen
optional fields (DEDUCED log 29). -/
def productBytes (p : Product) : List Byte :=
  p.ident.toList ++ programBytes p.program ++ index p.testerClass ++ index p.kit ++ word16 p.passBins
    ++ word16 p.retestBins ++ num 2 p.maxRetest ++ num 2 p.minSample ++ num 2 p.yieldFloor
    ++ p.binLimits.toList.flatMap (opt 2 (num 2)) ++ num 2 p.expectedYield ++ num 2 p.driftFloor
    ++ num 2 p.failRunLimit ++ num 2 p.minActive ++ num 4 p.tdTimeout ++ num 2 p.lossAllowance
    ++ index p.plan ++ p.autoLevels.toList.flatMap index

/-- The fields of Table 2-5, in its order (R182). -/
def groupBytes (g : Group) : List Byte :=
  opt 2 index g.standby ++ num 2 g.iirCode ++ listOf goldenBytes g.golden ++ num 2 g.allowed ++ num 2 g.corrInterval
    ++ num 4 g.corrTimeout ++ num 4 g.loadTimeout ++ num 4 g.unloadTimeout ++ num 2 g.loadRetries ++ num 4 g.blockWait

/-- A station table entry in the order of Table 10-4 (R182). -/
def stationBytes (st : Station) : List Byte :=
  word16 st.address ++ name (roleCode st.role) ++ index st.level ++ name (sideCode st.side) ++ opt 2 index st.cell

/-- The link configuration in the order of section 10.8 (R182). -/
def linkBytes (l : LinkConfig) : List Byte :=
  word16 l.own ++ word16 l.frameType ++ opt 2 word16 l.notice ++ num 4 l.aging

/-! ## Reading -/

/-- A number of a given count of bytes, most significant first, and the bytes after it. -/
def readNum : Nat → List Byte → Option (Nat × List Byte)
  | 0, b => some (0, b)
  | _ + 1, [] => none
  | width + 1, x :: b =>
    match readNum width b with
    | some (n, rest) => some (x.toNat * 256 ^ width + n, rest)
    | none => none

/-- A number of two bytes. -/
def readNum2 (b : List Byte) : Option (Nat × List Byte) := readNum 2 b

/-- A number of four bytes. -/
def readNum4 (b : List Byte) : Option (Nat × List Byte) := readNum 4 b

/-- A 16-bit field. -/
def readWord : List Byte → Option (BitVec 16 × List Byte)
  | hi :: lo :: b => some (hi ++ lo, b)
  | _ => none

/-- A signed number of two bytes, in two's complement (R182). -/
def readSigned (b : List Byte) : Option (Int × List Byte) :=
  match readWord b with
  | some (w, rest) => some (w.toInt, rest)
  | none => none

/-- An identifier of `n` characters. -/
def readIdent (n : Nat) (b : List Byte) : Option (Vector Byte n × List Byte) :=
  if b.length < n then none else some (Vector.ofFn fun i : Fin n => byteAt b i.val, b.drop n)

/-- A numbered resource below `n`; `none` beyond the range. -/
def readIndex (n : Nat) (b : List Byte) : Option (Fin n × List Byte) :=
  match readNum 2 b with
  | some (v, rest) => if h : v < n then some (⟨v, h⟩, rest) else none
  | none => none

/-- A name: the member of the list at the position the byte gives, counted from 1 (R182). -/
def readName {α : Type} (names : List α) : List Byte → Option (α × List Byte)
  | x :: b =>
    match x.toNat with
    | 0 => none
    | k + 1 => (names[k]?).map fun a => (a, b)
  | [] => none

/-- A flag: 1 or 0, any other byte as DESIGN CHOICE log 6 leaves it. -/
def readFlag : List Byte → Option (Bool × List Byte)
  | x :: b =>
    if x = 0 then some (false, b)
    else if x = 1 then some (true, b)
    else (Config.oddFlag x).map fun v => (v, b)
  | [] => none

/-- An optional field of a fixed width: a presence byte, then the field (R182). The bytes of an absent field are
passed over, 0 or not (DESIGN CHOICE log 33). -/
def readOpt {α : Type} (width : Nat) (read : List Byte → Option (α × List Byte)) (b : List Byte) :
    Option (Option α × List Byte) :=
  match readFlag b with
  | some (true, rest) => (read rest).map fun (a, rest) => (some a, rest)
  | some (false, rest) => if rest.length < width then none else some (none, rest.drop width)
  | none => none

/-- `n` elements one after another. -/
def readMany {α : Type} (read : List Byte → Option (α × List Byte)) : Nat → List Byte → Option (List α × List Byte)
  | 0, b => some ([], b)
  | n + 1, b =>
    match read b with
    | some (a, rest) => (readMany read n rest).map fun (as, rest) => (a :: as, rest)
    | none => none

/-- A list: its count in one byte, then the elements (R182). -/
def readList {α : Type} (read : List Byte → Option (α × List Byte)) : List Byte → Option (List α × List Byte)
  | x :: b => readMany read x.toNat b
  | [] => none

/-- A hold origin: 1 and a station address, or 2 and two bytes (R182), which are passed over, 0 or not (DESIGN CHOICE
log 33). -/
def readOrigin : List Byte → Option (HoldOrigin × List Byte)
  | x :: b =>
    match readWord b with
    | some (a, rest) => if x = 1 then some (.station a, rest) else if x = 2 then some (.auto, rest) else none
    | none => none
  | [] => none

/-- A program's identifier and version. -/
def readProgram (b : List Byte) : Option (ProgramName × List Byte) := do
  let (ident, b) ← readIdent 8 b
  let (version, b) ← readNum2 b
  return (⟨ident, version⟩, b)

/-- A tier. -/
def readTier (b : List Byte) : Option (Tier × List Byte) := do
  let (m, b) ← readNum2 b
  let (n, b) ← readNum2 b
  let (c, b) ← readNum2 b
  return (⟨m, n, c⟩, b)

/-- A golden unit; an expected bin above 15 is none (R29). -/
def readGolden (b : List Byte) : Option (Golden × List Byte) := do
  let (serial, b) ← readNum2 b
  let (bin, b) ← readIndex 16 b
  return (⟨serial, bin⟩, b)

/-- What has been read, when no byte is left: a body's length is that of its items (R182). -/
def whole {α : Type} : Option (α × List Byte) → Option α
  | some (a, []) => some a
  | _ => none

/-- A character in the printable range 32..126 (R9, R21, R25). -/
def printable (c : Byte) : Bool := 32 ≤ c.toNat && c.toNat ≤ 126

/-- An identifier whose characters are all printable. -/
def identPrintable {n : Nat} (v : Vector Byte n) : Bool := v.toList.all printable

end Sys2Proof.Machine
end

