-- ==== Sys2Proof/Machine/Ops.lean ====
section
/-! DEFINITION. The named operations over the state: tables, cells, lots, ports and time. -/

namespace Sys2Proof.Machine

open Sys2Proof

/-! ## Numbered resources -/

/-- Every cell number, ascending. -/
def allCells : List CellId := List.finRange 32

/-- Every lot slot, ascending. -/
def allSlots : List SlotId := List.finRange 256

/-- Every site, ascending. -/
def allSites : List Site := List.finRange 16

/-- Every bin, ascending. -/
def allBins : List Bin := List.finRange 16

/-! ## Cells and lots -/

/-- The record of a cell. -/
def getCell (s : State) (c : CellId) : Cell := s.cells[c]

/-- The state with a cell's record replaced. -/
def setCell (c : CellId) (x : Cell) (s : State) : State := { s with cells := s.cells.set c x }

/-- The state with a cell's record changed. -/
def modCell (c : CellId) (change : Cell → Cell) (s : State) : State := setCell c (change (getCell s c)) s

/-- The lot record in a slot, if the slot is not free. -/
def getLot (s : State) (i : SlotId) : Option Lot := s.lots[i]

/-- The state with a slot's contents replaced. -/
def setLot (i : SlotId) (x : Option Lot) (s : State) : State := { s with lots := s.lots.set i x }

/-- The state with the lot record of a slot changed; a free slot stays free. -/
def modLot (i : SlotId) (change : Lot → Lot) (s : State) : State :=
  match getLot s i with
  | some l => setLot i (some (change l)) s
  | none => s

/-- The slot of the lot record with an identifier (R2). -/
def findLot (s : State) (ident : LotIdent) : Option SlotId :=
  allSlots.find? fun i =>
    match getLot s i with
    | some l => l.ident == ident
    | none => false

/-- The lowest-numbered free slot (R1). -/
def freeSlot (s : State) : Option SlotId := allSlots.find? fun i => (getLot s i).isNone

/-- The number of lot records in use (R1). -/
def lotsInUse (s : State) : Nat := (allSlots.filter fun i => (getLot s i).isSome).length

/-- The lot a cell carries, with its slot. -/
def cellLot (s : State) (c : CellId) : Option (SlotId × Lot) :=
  match (getCell s c).lot with
  | some i => (getLot s i).map fun l => (i, l)
  | none => none

/-! ## Configuration tables -/

/-- What is read of a product entry that is empty. No lot, reservation or seeding names one (DESIGN CHOICE log 20). -/
def blankProduct : Product where
  ident := Vector.replicate 12 0
  program := ⟨Vector.replicate 8 0, 0⟩
  testerClass := 0
  kit := 0
  passBins := 0
  retestBins := 0
  maxRetest := 0
  minSample := 1
  yieldFloor := 0
  binLimits := Vector.replicate 16 none
  expectedYield := 0
  driftFloor := 0
  failRunLimit := 0
  minActive := 1
  tdTimeout := 1000
  lossAllowance := 0
  plan := 0
  autoLevels := Vector.replicate 8 0
  inUse := 0

/-- What is read of a group entry that is undefined. No enabled cell's group is (R43, DESIGN CHOICE log 20). -/
def blankGroup : Group where
  standby := none
  iirCode := 1
  golden := []
  allowed := 0
  corrInterval := 0
  corrTimeout := 10000
  loadTimeout := 1000
  unloadTimeout := 1000
  loadRetries := 0
  blockWait := 0

/-- A product table entry as the other blocks read it. -/
def productAt (s : State) (p : ProductId) : Product := s.products[p].getD blankProduct

/-- The product of a lot. -/
def productOf (s : State) (l : Lot) : Product := productAt s l.product

/-- The group entry of a cell, as the group table holds it. -/
def groupOf (s : State) (c : CellId) : Group := s.groups[(getCell s c).group].getD blankGroup

/-- The filter shift s of a cell's group: the IIR code plus 2 (section 6.6). -/
def shiftOf (s : State) (c : CellId) : Nat := (groupOf s c).iirCode + 2

/-- The index of the defined product entry with an identifier. -/
def findProduct (s : State) (ident : ProductIdent) : Option ProductId :=
  (List.finRange 64).find? fun p =>
    match s.products[p] with
    | some e => e.ident == ident
    | none => false

/-- The index of the program library entry with a name (section 2.3). -/
def findProgram (s : State) (name : ProgramName) : Option ProgramIx :=
  (List.finRange 48).find? fun p =>
    match s.programs[p] with
    | some e => e.name == name
    | none => false

/-- The segment count the library holds for a program, if it holds the program. -/
def segmentsOf (s : State) (name : ProgramName) : Option Nat :=
  match findProgram s name with
  | some p => s.programs[p].map (·.segments)
  | none => none

/-- The number of defined products that name a program (R25, R26, R35). -/
def productsNaming (s : State) (name : ProgramName) : Nat :=
  (s.products.toList.filter fun e =>
    match e with
    | some e => e.program == name
    | none => false).length

/-- The state with a product entry changed; an empty one stays empty. -/
def modProduct (p : ProductId) (change : Product → Product) (s : State) : State :=
  match s.products[p] with
  | some e => { s with products := s.products.set p (some (change e)) }
  | none => s

/-- The offset of a cell and product; 0 when the map has no entry (R34). -/
def offsetOf (s : State) (c : CellId) (p : ProductId) : Int :=
  match s.offsets.find? fun o => o.cell == c && o.product == p with
  | some o => o.value
  | none => 0

/-! ## Stations -/

/-- The station table entry with an address (section 10.3). -/
def stationAt (s : State) (a : Addr) : Option Station :=
  (s.stations.toList.find? fun e =>
    match e with
    | some st => st.address == a
    | none => false).join

/-- The program file server: the FILE_SERVER station in the lowest-indexed entry of that role (R86). -/
def fileServer (s : State) : Option Station :=
  (s.stations.toList.find? fun e =>
    match e with
    | some st => st.role == .fileServer
    | none => false).join

/-- The configured cell whose tester station is an address (R87, R89). -/
def cellOfTester (s : State) (a : Addr) : Option CellId :=
  allCells.find? fun c => (getCell s c).tester == some a

/-- A cell whose tester and handler station are both present (section 3.1). -/
def configured (x : Cell) : Bool := x.tester.isSome && x.handler.isSome

/-! ## Time -/

/-- Floor time: monotonic time plus the floor-time offset, modulo 2^32 (R190). -/
def floorTime (s : State) : Nat := (s.mono + s.offset) % 2 ^ 32

/-! ## Ports -/

/-- The most frames a port holds received and not yet acted on (R178). -/
def rxCapacity : Nat := 64

/-- The most frames a port holds handed to it and not yet sent (R178). -/
def txCapacity : Nat := 256

/-- The other port: where a frame that arrived on this one is forwarded (R178). -/
def otherPort : Port → Port
  | .cell => .floor
  | .floor => .cell

/-- A port's state. -/
def getPort (s : State) : Port → PortState
  | .cell => s.cellPort
  | .floor => s.floorPort

/-- The state with a port's state replaced. -/
def setPort (p : Port) (x : PortState) (s : State) : State :=
  match p with
  | .cell => { s with cellPort := x }
  | .floor => { s with floorPort := x }

/-- A frame handed to a port to be sent; it is dropped where 256 frames wait (R178). -/
def handTo (p : Port) (fr : OutFrame) (s : State) : State :=
  let x := getPort s p
  setPort p { x with tx := if x.tx.length < txCapacity then x.tx ++ [fr] else x.tx, handed := x.handed + 1 } s

/-- A frame the director originates: its own address as source and flag bit 0 set (R186, R187). -/
def originate (p : Port) (kind : Kind) (dst : Addr) (level : Byte) (tag : BitVec 16) (lot : LotIdent)
    (body : List Byte) (s : State) : State :=
  handTo p ⟨s.link.frameType, headerBytes ⟨2, dst, s.link.own, level, 1, tag, lot⟩ (kindByte kind) body.length ++ body⟩ s

/-- A received frame forwarded unchanged to the other port (R178, R181). -/
def forward (kind : Byte) (lead : List Byte) (f : Frame) (s : State) : State :=
  handTo (otherPort f.port) ⟨f.etherType, framePayload kind lead f⟩ s

end Sys2Proof.Machine
end

