-- ==== Sys2Proof/Machine/Flags.lean ====
section
/-! DEFINITION. The flags the blocks read and the discard counters: waiting and standby cells, blocking
holds, good and fail counts, eligibility and preference of lots. -/

namespace Sys2Proof.Machine

open Sys2Proof

/-! ## Discard counters -/

/-- A 32-bit count that stops at 4,294,967,295 (R188). -/
def countUp (have_ add : Nat) : Nat := min (have_ + add) 4294967295

/-- The counters with `n` added to one of them (R188). -/
def bump (k : Counter) (n : Nat) (x : Counters) : Counters :=
  match k with
  | .unknownStation => { x with unknownStation := countUp x.unknownStation n }
  | .badState => { x with badState := countUp x.badState n }
  | .late => { x with late := countUp x.late n }
  | .duplicateTd => { x with duplicateTd := countUp x.duplicateTd n }
  | .siteInactive => { x with siteInactive := countUp x.siteInactive n }
  | .malformed => { x with malformed := countUp x.malformed n }

/-- The state with `n` added to a discard counter. -/
def countBy (k : Counter) (n : Nat) (s : State) : State := { s with counters := bump k n s.counters }

/-- The state with 1 added to a discard counter. -/
def count (k : Counter) (s : State) : State := countBy k 1 s

/-! ## Sets -/

/-- Whether a site or bin is in a set. -/
def inSet (set : BitVec 16) (k : Fin 16) : Bool := set.getLsbD k.val

/-- The number of members of a set; the active count of an active mask (R46). -/
def size (set : BitVec 16) : Nat := ((List.finRange 16).filter (inSet set)).length

/-- The set with one member removed. -/
def without (set : BitVec 16) (k : Fin 16) : BitVec 16 := set &&& ~~~(1#16 <<< k.val)

/-- The sites 0..n-1 (R42). -/
def firstSites (n : Nat) : SiteSet := BitVec.ofNat 16 (2 ^ n - 1)

/-! ## Lots -/

/-- A lot has a blocking hold, the overflow flag counting as one (R140). -/
def blocked (l : Lot) : Bool := l.overflow || l.holds.any fun h => h.kind == .blocking

/-- The sum of the counts of the bins in a set. -/
def binSum (set : BinSet) (bins : Vector Nat 16) : Nat :=
  (allBins.map fun b => if inSet set b then bins[b] else 0).sum

/-- G: the sum of the counts of the product's pass bins (R108, Chapter 9). -/
def goodCount (p : Product) (l : Lot) : Nat := binSum p.passBins l.bins

/-- The fail count: the sum of the counts of all other bins (Chapter 9). -/
def failCount (p : Product) (l : Lot) : Nat := binSum (~~~p.passBins) l.bins

/-! ## Cells -/

/-- A cell is a standby while its group's standby field names it (R31, R45). -/
def isStandby (s : State) (c : CellId) : Bool := (groupOf s c).standby == some c

/-- A cell is not a standby, or covers (R63, R64, R65). -/
def mayTakeWork (s : State) (c : CellId) : Bool := !isStandby s c || (getCell s c).actingFor.isSome

/-- A cell is waiting: IDLE with its latch set, and no standby without its acting-for (R63). -/
def waiting (s : State) (c : CellId) : Bool :=
  (getCell s c).state == .idle && (getCell s c).latch && mayTakeWork s c

/-- The qualification sends an idle cell to correlation (R127). -/
def owesCorrelation (x : Cell) : Bool := x.qual == .due || x.qual == .suspect

/-- A covered cell has returned: neither CORRELATING nor DOWN, and not UNQUALIFIED (R135). -/
def returned (x : Cell) : Bool := x.state != .correlating && x.state != .down && x.qual != .unqualified

/-- The standby that acts for a cell (R135). -/
def actingStandby (s : State) (c : CellId) : Option CellId :=
  allCells.find? fun t => (getCell s t).actingFor == some c

/-! ## Eligibility and preference -/

/-- A QUEUED lot is eligible for a cell (R68). -/
def eligible (s : State) (c : CellId) (l : Lot) : Bool :=
  let x := getCell s c
  let p := productOf s l
  p.testerClass == x.testerClass && p.kit == x.kit && decide (p.minActive ≤ size x.active) &&
    match x.reserved with
    | some r => l.product == r
    | none => true

/-- A lot has affinity for a cell (R69, second key). -/
def affinity (s : State) (c : CellId) (l : Lot) : Bool :=
  l.lastCell == some c || (isStandby s c && (getCell s c).actingFor.isSome && l.lastCell == (getCell s c).actingFor)

/-- The cell's loaded program is the lot's product's program (R69, third key). -/
def programMatches (s : State) (c : CellId) (l : Lot) : Bool :=
  (getCell s c).loaded == some (productOf s l).program

/-- The cell prefers the first lot to the second: class, affinity, program, entry sequence (R69). -/
def prefers (s : State) (c : CellId) (a b : Lot) : Bool :=
  if a.priority ≠ b.priority then decide (b.priority < a.priority)
  else if affinity s c a ≠ affinity s c b then affinity s c a
  else if programMatches s c a ≠ programMatches s c b then programMatches s c a
  else decide (a.entrySeq < b.entrySeq)

end Sys2Proof.Machine
end

