-- ==== Sys2Proof/Machine/Notices.lean ====
section
/-! DEFINITION. The frames the director originates: notices (R187), answers (R186) and commands to testers
and handlers (R38, R178). -/

namespace Sys2Proof.Machine

open Sys2Proof

/-! ## Notices -/

/-- A port's number, as the free values of Config take it. -/
def portNumber : Port → Nat
  | .cell => 0
  | .floor => 1

/-- The requested level of the next frame a port originates, other than an answer (DESIGN CHOICE log 8). -/
def freeLevel (p : Port) (s : State) : Byte := Config.originatedLevel (portNumber p) (getPort s p).handed

/-- The port a notice goes out on: the cell port when the station table holds the notice station with
side CELL, else the floor port (R187). -/
def noticePort (s : State) (station : Addr) : Port :=
  match stationAt s station with
  | some st => st.side
  | none => .floor

/-- A notice to the notice station; none while it is absent (R187). -/
def notice (kind : NoticeKind) (lot : LotIdent) (contents : List Byte) (s : State) : State :=
  match s.link.notice with
  | none => s
  | some a =>
    let p := noticePort s a
    originate p .notice a (freeLevel p s) 0 lot (name (noticeCode kind) ++ contents) s

/-- The LOT_STATE notice (R3). The last cell, which R3 gives only at a detach, stands as an optional field of R182
(DESIGN CHOICE log 39). -/
def lotStateNotice (i : SlotId) (ident : LotIdent) (before after : Option LotState)
    (cell last : Option CellId) (s : State) : State :=
  notice .lotState ident
    (ident.toList ++ index i ++ opt 1 (fun x => name (lotStateCode x)) before
      ++ opt 1 (fun x => name (lotStateCode x)) after ++ opt 2 index cell ++ opt 2 index last) s

/-- The CELL_STATE notice of a cell that has left `before` (R39). Its header names the cell's current lot, and none where
the cell carries none (R187, DESIGN CHOICE log 38). The down reason and the exit intent, which R39 gives only for certain
new states, stand as optional fields of R182: a presence byte, and then zeros where not given (DESIGN CHOICE log 39). -/
def cellStateNotice (c : CellId) (before : CellState) (s : State) : State :=
  let x := getCell s c
  let lot := (cellLot s c).map fun q => q.2.ident
  notice .cellState (lot.getD noLot)
    (index c ++ name (cellStateCode before) ++ name (cellStateCode x.state)
      ++ opt 16 (fun v : LotIdent => v.toList) lot
      ++ opt 1 (fun r => name (downReasonCode r)) (if x.state = .down then x.downReason else none)
      ++ opt 1 (fun r => name (intentCode r))
          (if x.state = .stopping ∨ x.state = .stalled then some x.intent else none)) s

/-! ## Answers -/

/-- Where the answer to a frame goes (R186). -/
def askerOf (f : Frame) : Asker := ⟨f.port, f.hdr.src, f.hdr.tag, f.hdr.lot⟩

/-- An answer frame; `names` are the kind byte of the request and, for a COMMAND, its command byte (R182,
R186). -/
def answer (a : Asker) (names : List Byte) (code : AnswerCode) (contents : List Byte) (s : State) : State :=
  originate a.port .answer a.addr 0 a.tag a.lot (names ++ name (answerCode code) ++ contents) s

/-- The bytes an answer names a director command with. -/
def commandNames (c : Command) : List Byte := kindByte .command :: commandLead c

/-- The answer to a director command. -/
def reply (c : Command) (f : Frame) (code : AnswerCode) (contents : List Byte) (s : State) : State :=
  answer (askerOf f) (commandNames c) code contents s

/-! ## Commands to equipment -/

/-- A command to a tester or handler, on the cell port (R178). -/
def sendCommand (kind : Kind) (dst : Option Addr) (lot : LotIdent) (body : List Byte) (s : State) : State :=
  match dst with
  | none => s
  | some a =>
    originate .cell kind a (freeLevel .cell s) (Config.commandTag s.cellPort.handed) lot body s

/-- A command to a cell's tester and handler, the tester first (R38, DESIGN CHOICE log 24). -/
def sendBoth (kind : Kind) (c : CellId) (lot : LotIdent) (body : List Byte) (s : State) : State :=
  sendCommand kind (getCell s c).handler lot body (sendCommand kind (getCell s c).tester lot body s)

/-- PROGRAM_FETCH to the program file server, on the floor port; none when the station table holds no
station of that role (R86). -/
def sendFetch (lot : LotIdent) (body : List Byte) (s : State) : State :=
  match fileServer s with
  | none => s
  | some st => originate .floor .programFetch st.address (freeLevel .floor s) 0 lot body s

end Sys2Proof.Machine
end

