-- ==== Sys2Proof/Machine/LotOps.lean ====
section
/-! DEFINITION. The Lot Table's operations: lot states, cell states, the pairing of lots and cells, the
dispatch queue and the freeing of a record (Chapters 1 and 3). -/

namespace Sys2Proof.Machine

open Sys2Proof

/-! ## States -/

/-- A change of a lot's state with its LOT_STATE notice; `detached` is the cell the change parts the lot
from (R3). -/
def enterLotState (i : SlotId) (new : LotState) (detached : Option CellId) (s : State) : State :=
  match getLot s i with
  | none => s
  | some l =>
    lotStateNotice i l.ident (some l.state) (some new) l.cell detached (setLot i (some { l with state := new }) s)

/-- A change of a cell's state with its CELL_STATE notice; `also` is what changes with it (R39). -/
def enterCellState (c : CellId) (new : CellState) (also : Cell → Cell) (s : State) : State :=
  cellStateNotice c (getCell s c).state (modCell c (fun x => { also x with state := new }) s)

/-- The request latch cleared (R63). -/
def clearLatch (x : Cell) : Cell := { x with latch := false, latchTime := 0 }

/-- The request latch set at a time; a latch already set keeps its time (R63). -/
def setLatch (time : Nat) (x : Cell) : Cell := if x.latch then x else { x with latch := true, latchTime := time }

/-- The block reservation cleared, with its wait deadline (R76). -/
def clearReservation (x : Cell) : Cell := { x with reserved := none, blockRemaining := 0, blockDeadline := none }

/-- A cell becomes DOWN: the down reason is set, the latch, the reservation and the exit intent are
cleared (R39, R63, R76). -/
def enterDown (c : CellId) (reason : DownReason) (s : State) : State :=
  enterCellState c .down (fun x => { clearReservation (clearLatch x) with downReason := some reason, intent := .none }) s

/-! ## The dispatch queue -/

/-- The first lot stands before the second: class descending, then entry sequence ascending (R6). -/
def standsBefore (a b : Lot) : Bool :=
  decide (b.priority < a.priority) || (a.priority == b.priority && decide (a.entrySeq < b.entrySeq))

/-- A queue with a lot put at the place its class and entry sequence give it (R6). -/
def insertLot (s : State) (i : SlotId) (l : Lot) : List SlotId → List SlotId
  | [] => [i]
  | j :: rest =>
    match getLot s j with
    | some m => if standsBefore l m then i :: j :: rest else j :: insertLot s i l rest
    | none => j :: insertLot s i l rest

/-- A lot takes its place in the queue, leaving any place it had (R6). -/
def placeInQueue (i : SlotId) (s : State) : State :=
  match getLot s i with
  | some l => { s with queue := insertLot s i l (s.queue.erase i) }
  | none => s

/-- A lot leaves the queue (R8). -/
def leaveQueue (i : SlotId) (s : State) : State := { s with queue := s.queue.erase i }

/-- A lot's entry in the queue as a lot record. -/
def queuedLot (s : State) (i : SlotId) : Option (SlotId × Lot) := (getLot s i).map fun l => (i, l)

/-! ## Pairing -/

/-- The pairing part of attach: the lot leaves the queue, and lot and cell name each other (R5). -/
def pair (i : SlotId) (c : CellId) (s : State) : State :=
  modCell c (fun x => { x with lot := some i }) (modLot i (fun l => { l with cell := some c }) (leaveQueue i s))

/-- The parting part of detach: the lot's cell is cleared, its last cell set, and the cell's current lot
cleared (R5). -/
def part (i : SlotId) (c : CellId) (s : State) : State :=
  modCell c (fun x => { x with lot := none }) (modLot i (fun l => { l with cell := none, lastCell := some c }) s)

/-- A detach with the lot's move to a state other than QUEUED (R5). -/
def detachTo (i : SlotId) (c : CellId) (new : LotState) (s : State) : State :=
  enterLotState i new (some c) (part i c s)

/-! ## Freeing a record -/

/-- A lot record is freed: off the queue and the release list, its product's in-use count one less, its
slot free (R15). -/
def freeLot (i : SlotId) (s : State) : State :=
  match getLot s i with
  | none => s
  | some l =>
    let s := { s with queue := s.queue.erase i, releaseList := s.releaseList.erase i }
    setLot i none (modProduct l.product (fun p => { p with inUse := p.inUse - 1 }) s)

end Sys2Proof.Machine
end

