-- ==== Sys2Proof/Machine/ArbiterOps.lean ====
section
/-! DEFINITION. The Dispatch Arbiter's operations: choosing a lot for a cell and a cell for a lot, seeding,
starting a lot, beginning a load, assignment and the join of the queue (Chapters 4, 5 and 6). -/

namespace Sys2Proof.Machine

open Sys2Proof

/-! ## Loads (R85, R86) -/

/-- The beginning of an attempt: the counts and deadline are set afresh and PROGRAM_FETCH is sent (R86). -/
def beginAttempt (c : CellId) (s : State) : State :=
  match (getCell s c).load with
  | none => s
  | some r =>
    let expected := (segmentsOf s r.program).getD 0
    let r := { r with expected := expected, seen := 0, deadline := s.mono + (groupOf s c).loadTimeout }
    let s := modCell c (fun x => { x with load := some r }) s
    let lot := match r.lot with
      | some i => (getLot s i).map fun l : Lot => l.ident
      | none => none
    sendFetch (lot.getD noLot)
      (word16 ((getCell s c).tester.getD 0) ++ programBytes r.program ++ num 2 expected ++ num 2 r.attempts) s

/-- The beginning of a load for an ASSIGNED lot (R85). -/
def beginLoad (i : SlotId) (c : CellId) (program : ProgramName) (s : State) : State :=
  beginAttempt c (modCell c (fun x =>
    { x with loaded := none, load := some ⟨program, 0, 0, 1, 0, some i⟩ }) s)

/-! ## Starting a lot (R72, R77, R114, R55) -/

/-- The touchdown deadline is set to now plus the product's touchdown timeout (R55). -/
def setTdDeadline (c : CellId) (l : Lot) (s : State) : State :=
  modCell c (fun x => { x with tdDeadline := some (s.mono + (productOf s l).tdTimeout) }) s

/-- The reservation is set or counted at a START on a BLOCK cell (R77). -/
def countReservation (product : ProductId) (x : Cell) : Cell :=
  if x.mode = .block then
    match x.reserved with
    | none => { x with reserved := some product, blockRemaining := x.blockCode.val + 1 - 1 }
    | some _ => { x with blockRemaining := x.blockRemaining - 1 }
  else x

/-- Seeding: a cell whose last product is absent or another takes the product's expected yield and a full
soak (R114). -/
def seedCell (product : ProductId) (expectedYield shift : Nat) (x : Cell) : Cell :=
  if x.lastProduct = some product then x
  else { x with
    average := 256 * expectedYield
    soak := 2 ^ shift
    qual := if x.qual = .qualified then .soaking else x.qual
    lastProduct := some product }

/-- A lot is started on its cell (R72). -/
def startLot (i : SlotId) (c : CellId) (s : State) : State :=
  let s := enterLotState i .testing none s
  let s := enterCellState c .running (fun x => { x with intent := .none }) s
  let s := modLot i (fun l => { l with lastTd := 0 }) s
  match getLot s i with
  | none => s
  | some l =>
    let p := productOf s l
    let s := modCell c (countReservation l.product) s
    let s := modCell c (seedCell l.product p.expectedYield (shiftOf s c)) s
    let s := sendBoth .start c l.ident (p.ident.toList ++ programBytes p.program ++ num 2 l.pass) s
    setTdDeadline c l s

/-! ## Assignment (R71) -/

/-- An assignment of a QUEUED lot to a cell: attach, latch and block wait cleared, then a start or a load
(R71). -/
def assign (i : SlotId) (c : CellId) (s : State) : State :=
  match getLot s i with
  | none => s
  | some l =>
    let program := (productOf s l).program
    let s := pair i c s
    let s := modCell c (fun x => { clearLatch x with blockDeadline := none }) s
    if (getCell s c).loaded = some program then startLot i c s
    else
      beginLoad i c program (enterCellState c .loading id (enterLotState i .assigned none s))

/-! ## Choosing a lot for a cell (R67, R69) -/

/-- The better of a choice so far and another lot (R69). -/
def better (s : State) (c : CellId) (best : Option (SlotId × Lot)) (q : SlotId × Lot) : Option (SlotId × Lot) :=
  match best with
  | none => some q
  | some b => if prefers s c q.2 b.2 then some q else best

/-- The lot a cell chooses among the eligible QUEUED lots that also meet a condition (R68, R69). -/
def choose (s : State) (c : CellId) (also : Lot → Bool) : Option SlotId :=
  (((s.queue.filterMap (queuedLot s)).filter fun q => eligible s c q.2 && also q.2).foldl (better s c) none).map (·.1)

/-- A waiting cell chooses, and the choice is assigned; a cell that does not wait takes nothing (R67). -/
def chooseFor (c : CellId) (s : State) : State :=
  if waiting s c then
    match choose s c fun _ => true with
    | some i => assign i c s
    | none => s
  else s

/-! ## Choosing a cell for a lot (R70) -/

/-- The cell that wins a lot so far, or another waiting cell with an earlier latch time; cells are taken in
ascending order, so among equal times the lowest-numbered wins (R70). -/
def earlier (s : State) (best : Option CellId) (c : CellId) : Option CellId :=
  match best with
  | none => some c
  | some b => if (getCell s c).latchTime < (getCell s b).latchTime then some c else best

/-- The waiting cell that a lot goes to (R70). -/
def winner (s : State) (l : Lot) : Option CellId :=
  (allCells.filter fun c => waiting s c && eligible s c l).foldl (earlier s) none

/-- A lot that has become available is offered to the waiting cells (R70). -/
def offer (i : SlotId) (s : State) : State :=
  match getLot s i with
  | none => s
  | some l =>
    match winner s l with
    | some c => assign i c s
    | none => s

/-! ## Joining the queue (R7) -/

/-- The stamps of a join: queue time and aging start (R7). -/
def stampJoin (i : SlotId) (s : State) : State :=
  modLot i (fun l => { l with queueTime := floorTime s, agingStart := s.mono }) s

/-- A lot moves to QUEUED and joins the dispatch queue: stamped, placed, notified, offered (R7). -/
def joinQueue (i : SlotId) (detached : Option CellId) (s : State) : State :=
  let s := placeInQueue i (stampJoin i s)
  offer i (enterLotState i .queued detached s)

end Sys2Proof.Machine
end

