-- ==== Sys2Proof/Machine/CellOps.lean ====
section
/-! DEFINITION. The Cell Table's operations: stop requests, resumes and unloads of a cell (Chapter 3). -/

namespace Sys2Proof.Machine

open Sys2Proof

/-- A request for an intent merged with the one held (R48). -/
def mergeIntent (held asked : Intent) : Intent :=
  match asked with
  | .unload => .unload
  | .pause => if held = .none then .pause else held
  | .none => held

/-- UNLOAD is sent to the handler, and lot and cell become UNLOADING (R52). -/
def sendUnload (c : CellId) (s : State) : State :=
  match cellLot s c with
  | none => s
  | some (i, l) =>
    let s := sendCommand .unload (getCell s c).handler l.ident (num 2 l.pass) s
    let s := enterLotState i .unloading none s
    let deadline := s.mono + (groupOf s c).unloadTimeout
    enterCellState c .unloading (fun x =>
      { x with intent := .none, tdDeadline := none, unloadDeadline := some deadline }) s

/-- A stop request with an intent (R49). -/
def stopRequest (c : CellId) (asked : Intent) (s : State) : State :=
  match cellLot s c with
  | none => s
  | some (i, l) =>
    match (getCell s c).state, l.state with
    | .running, .testing =>
      let s := sendBoth .stop c l.ident (num 2 l.pass) s
      enterCellState c .stopping (fun x => { x with intent := asked }) (enterLotState i .stopping none s)
    | .stalled, .testing =>
      let s := sendBoth .stop c l.ident (num 2 l.pass) s
      enterLotState i .stopping none (modCell c (fun x => { x with intent := asked }) s)
    | .stopping, .stopping | .stalled, .stopping =>
      modCell c (fun x => { x with intent := mergeIntent x.intent asked }) s
    | .paused, .paused => if asked = .unload then sendUnload c s else s
    | _, _ => s

/-- A resume: RESUME is sent and lot and cell go back to TESTING and RUNNING; a SUSPECT cell is sent UNLOAD
instead (R51). -/
def resume (c : CellId) (s : State) : State :=
  match cellLot s c with
  | none => s
  | some (i, l) =>
    if (getCell s c).qual = .suspect then sendUnload c s
    else
      let s := sendBoth .resume c l.ident (num 2 l.pass) s
      let s := enterLotState i .testing none s
      let s := enterCellState c .running (fun x => { x with intent := .none }) s
      setTdDeadline c l s

/-- Lot and cell become PAUSED, with intent NONE and no touchdown deadline (R50, R62). -/
def pauseCell (c : CellId) (s : State) : State :=
  match cellLot s c with
  | none => s
  | some (i, _) =>
    enterCellState c .paused (fun x => { x with intent := .none, tdDeadline := none }) (enterLotState i .paused none s)

end Sys2Proof.Machine
end

