-- ==== Sys2Proof/Machine/CorrelationOps.lean ====
section
/-! DEFINITION. The Correlation Unit's operations: raises of qualification, correlation starts and standby
cover (Chapter 7). -/

namespace Sys2Proof.Machine

open Sys2Proof

/-! ## Raises (R102, R123 to R125) -/

/-- A raise to DUE: made from QUALIFIED or SOAKING (R102). -/
def raiseDue (x : Cell) : Cell :=
  if x.qual = .qualified ∨ x.qual = .soaking then { x with qual := .due } else x

/-- A raise to SUSPECT from QUALIFIED, SOAKING or DUE; a cell carrying a lot is asked to stop with intent
UNLOAD (R102, R125). -/
def raiseSuspect (c : CellId) (s : State) : State :=
  let x := getCell s c
  if x.qual = .qualified ∨ x.qual = .soaking ∨ x.qual = .due then
    stopRequest c .unload (modCell c (fun x => { x with qual := .suspect }) s)
  else s

/-! ## Cover (R129, R135) -/

/-- A cover ends: the acting-for is cleared, and with it an IDLE standby's latch and reservation (R135). -/
def endCover (t : CellId) (s : State) : State :=
  modCell t (fun x =>
    if x.state = .idle then { clearReservation (clearLatch x) with actingFor := none }
    else { x with actingFor := none }) s

/-- The cover of a cell that returns ends where the rule says, if the covered cell has returned (R135,
ends 2 and 3). -/
def endReturnedCover (t : CellId) (s : State) : State :=
  match (getCell s t).actingFor with
  | some d => if isStandby s t && returned (getCell s d) then endCover t s else s
  | none => s

/-- A cover begins at a correlation start when its conditions hold; the standby's latch is set and it
chooses at once (R129). `latched` is the correlating cell's latch time, if its latch was set. -/
def startCover (c : CellId) (latched : Option Nat) (s : State) : State :=
  match (groupOf s c).standby with
  | none => s
  | some t =>
    if t ≠ c ∧ (getCell s t).state = .idle ∧ (getCell s t).actingFor = none then
      let time := latched.getD s.mono
      chooseFor t (modCell t (fun x => { setLatch time x with actingFor := some c }) s)
    else s

/-! ## Correlation starts (R128) -/

/-- CORRELATE to a cell's tester and handler: group, number of golden units, serials, timeout (R128). -/
def sendCorrelate (c : CellId) (s : State) : State :=
  let g := groupOf s c
  sendBoth .correlate c noLot
    (index (getCell s c).group ++ num 2 g.golden.length ++ listOf (fun u : Golden => num 2 u.serial) g.golden
      ++ num 4 g.corrTimeout) s

/-- A fresh run record (R128, R139). -/
def freshRun (s : State) (c : CellId) : RunRecord := ⟨[], s.mono + (groupOf s c).corrTimeout⟩

/-- Steps 2 to 4 of a correlation start (R128). -/
def beginCorrelation (c : CellId) (s : State) : State :=
  let s := enterCellState c .correlating (fun x => { clearReservation (clearLatch x) with downReason := none }) s
  let s := if isStandby s c && (getCell s c).actingFor.isSome then endCover c s else s
  let s := modCell c (fun x => { x with run := some (freshRun s c) }) s
  sendCorrelate c s

/-- A correlation start, with the cover it may begin (R128, R129). -/
def correlationStart (c : CellId) (s : State) : State :=
  let x := getCell s c
  startCover c (if x.latch then some x.latchTime else none) (beginCorrelation c s)

/-- A DUE or SUSPECT cell that has entered IDLE goes to correlation; any other chooses if it waits (R92,
R127). -/
def settleIdle (c : CellId) (s : State) : State :=
  if owesCorrelation (getCell s c) then correlationStart c s else chooseFor c s

end Sys2Proof.Machine
end

