-- ==== Sys2Proof/Machine/ReleaseOps.lean ====
section
/-! DEFINITION. The Release Unit's operations: release evaluation, the taking of a lot off the release list,
and the QA tier of a good-unit count (Chapters 2 and 9). -/

namespace Sys2Proof.Machine

open Sys2Proof

/-- A lot has an ACCEPTED QA record. -/
def accepted (l : Lot) : Bool :=
  match l.qa with
  | some q => q.verdict == .accepted
  | none => false

/-- The four conditions of a release (R170). -/
def releasable (l : Lot) : Bool := l.state == .tested && accepted l && l.holds.isEmpty && !l.overflow

/-- The RELEASED notice (R170). -/
def releasedNotice (i : SlotId) (l : Lot) (time : Nat) (s : State) : State :=
  notice .released l.ident
    (l.ident.toList ++ index i ++ (productOf s l).ident.toList ++ num 2 (goodCount (productOf s l) l) ++ num 4 time
      ++ num 2 (s.releaseList.length - 1)) s

/-- Release evaluation of a lot: stamped, RELEASED, at the tail of the release list, notified; nothing when
a condition fails (R170). -/
def releaseEvaluation (i : SlotId) (s : State) : State :=
  match getLot s i with
  | none => s
  | some l =>
    if releasable l then
      let time := floorTime s
      let s := enterLotState i .released none (modLot i (fun l => { l with releaseTime := some time }) s)
      releasedNotice i l time { s with releaseList := s.releaseList ++ [i] }
    else s

/-- A RELEASED lot is taken off the release list and becomes TESTED without a release time (R172). -/
def takeOffRelease (i : SlotId) (s : State) : State :=
  enterLotState i .tested none
    (modLot i (fun l => { l with releaseTime := none }) { s with releaseList := s.releaseList.erase i })

/-- The tier of a plan for a good-unit count: the first whose max lot size is at least it, else the last
(R28). -/
def tierFor (tiers : List Tier) (good : Nat) : Option Tier :=
  match tiers.find? fun t => decide (good ≤ t.maxLot) with
  | some t => some t
  | none => tiers.getLast?

end Sys2Proof.Machine
end

