-- ==== Sys2Proof/Machine/HoldOps.lean ====
section
/-! DEFINITION. The Hold Unit's operations: hold ids, recording a hold, automatic holds, removals and their
effects, and the steps of a sweep (Chapter 8). -/

namespace Sys2Proof.Machine

open Sys2Proof

/-! ## Hold ids (R141) -/

/-- An id is that of a hold on some lot. -/
def holdIdUsed (s : State) (id : Nat) : Bool :=
  allSlots.any fun i =>
    match getLot s i with
    | some l => l.holds.any fun h => h.id == id
    | none => false

/-- The hold-id counter advanced: 65535 is followed by 1. -/
def advanceId (id : Nat) : Nat := if 65535 ≤ id then 1 else id + 1

/-- The first id not in use, from one on, within a number of tries. At most 2048 holds exist, so 65535
tries always find one (R141). -/
def freshHoldId (s : State) : Nat → Nat → Nat
  | 0, id => id
  | tries + 1, id => if holdIdUsed s id then freshHoldId s tries (advanceId id) else id

/-- The id the next hold record is given. -/
def nextFreeId (s : State) : Nat := freshHoldId s 65535 s.nextHoldId

/-! ## Effects of a placement (R147, R148) -/

/-- An ASSIGNED lot is pulled from its load and becomes HELD; the load goes on (R95). -/
def pull (i : SlotId) (c : CellId) (s : State) : State :=
  detachTo i c .held (modCell c (fun x => { x with load := x.load.map fun r => { r with lot := none } }) s)

/-- What a blocking hold, or the setting of the overflow flag, does to its lot (R147). -/
def blockingEffect (i : SlotId) (s : State) : State :=
  match getLot s i with
  | none => s
  | some l =>
    match l.state, l.cell with
    | .queued, _ => enterLotState i .held none (leaveQueue i s)
    | .assigned, some c => pull i c s
    | .testing, some c | .stopping, some c => stopRequest c .pause s
    | .released, _ => takeOffRelease i s
    | _, _ => s

/-- What an advisory hold does to its lot (R148). -/
def advisoryEffect (i : SlotId) (s : State) : State :=
  match getLot s i with
  | none => s
  | some l => if l.state = .released then takeOffRelease i s else s

/-- What a hold of a kind does to its lot. -/
def placementEffect (kind : HoldKind) (i : SlotId) (s : State) : State :=
  match kind with
  | .blocking => blockingEffect i s
  | .advisory => advisoryEffect i s

/-! ## Recording (R146) -/

/-- The HOLD_PLACED notice; `overflow` marks the setting of the overflow flag (R146). -/
def holdPlacedNotice (i : SlotId) (l : Lot) (h : Hold) (overflow : Bool) (s : State) : State :=
  notice .holdPlaced l.ident
    (l.ident.toList ++ index i ++ holdBytes h ++ name (lotStateCode l.state) ++ flag overflow) s

/-- A hold is recorded: given its id, put at the tail of the list, notified, and its effect made (R146). -/
def recordHold (i : SlotId) (reason : Nat) (kind : HoldKind) (level : Level) (origin : HoldOrigin) (s : State) :
    State :=
  match getLot s i with
  | none => s
  | some l =>
    let id := nextFreeId s
    let h := Hold.mk id reason kind level origin (floorTime s)
    let s := setLot i (some { l with holds := l.holds ++ [h] }) { s with nextHoldId := advanceId id }
    placementEffect kind i (holdPlacedNotice i l h false s)

/-- The kind of an automatic hold (Table 8-2). -/
def autoKind : AutoReason → HoldKind
  | .cellSuspect => .advisory
  | _ => .blocking

/-- The level of an automatic hold on a lot of a product (Table 8-2). -/
def autoLevel (p : Product) : AutoReason → Level
  | .lowYield => p.autoLevels[0]
  | .binLimit => p.autoLevels[1]
  | .overcount => p.autoLevels[2]
  | .reconcile => p.autoLevels[3]
  | .unitLoss => p.autoLevels[4]
  | .qaShort => p.autoLevels[5]
  | .qaReject => p.autoLevels[6]
  | .cellSuspect => p.autoLevels[7]
  | .material => 1

/-- A hold is an automatic hold of a reason. -/
def isAuto (reason : AutoReason) (h : Hold) : Bool := h.origin == .auto && h.reason == autoReasonCode reason

/-- The overflow flag is set, notified and given a blocking hold's effect; a flag already set is left (R145). The notice's
placed time is the present floor time (DESIGN CHOICE log 31). -/
def setOverflow (i : SlotId) (reason : AutoReason) (s : State) : State :=
  match getLot s i with
  | none => s
  | some l =>
    if l.overflow then s
    else
      let h := Hold.mk 0 (autoReasonCode reason) .blocking 0 .auto (floorTime s)
      blockingEffect i (holdPlacedNotice i l h true (setLot i (some { l with overflow := true }) s))

/-- An automatic hold request (R144). -/
def autoHold (i : SlotId) (reason : AutoReason) (s : State) : State :=
  match getLot s i with
  | none => s
  | some l =>
    if l.holds.any (isAuto reason) then s
    else if 8 ≤ l.holds.length then setOverflow i reason s
    else recordHold i (autoReasonCode reason) (autoKind reason) (autoLevel (productOf s l) reason) .auto s

/-! ## Removal (R150 to R152) -/

/-- What follows a removal; `blockingGone` says that it took away a blocking hold or the overflow flag
(R152). -/
def afterRemoval (i : SlotId) (blockingGone : Bool) (s : State) : State :=
  match getLot s i with
  | none => s
  | some l =>
    if l.state = .tested then releaseEvaluation i s
    else if blockingGone && !blocked l then
      match l.state, l.cell with
      | .held, _ => joinQueue i none s
      | .paused, some c => resume c s
      | .stopping, some c =>
        modCell c (fun x => { x with intent := if x.intent = .pause then .none else x.intent }) s
      | _, _ => s
    else s

/-- The HOLD_REMOVED notice (R150, R151). -/
def holdRemovedNotice (i : SlotId) (l : Lot) (id : Nat) (reason : Byte) (kind : HoldKind) (level : Level)
    (remover : Addr) (effective : Level) (bySweep : Bool) (s : State) : State :=
  notice .holdRemoved l.ident
    (l.ident.toList ++ index i ++ num 2 id ++ [reason] ++ name (holdKindCode kind) ++ index level ++ word16 remover
      ++ index effective ++ flag bySweep) s

/-- A hold record is removed from a lot, notified, and the removal's effect made (R150, R152). -/
def removeHold (i : SlotId) (h : Hold) (remover : Addr) (effective : Level) (bySweep : Bool) (s : State) : State :=
  match getLot s i with
  | none => s
  | some l =>
    let s := setLot i (some { l with holds := l.holds.erase h }) s
    afterRemoval i (h.kind == .blocking)
      (holdRemovedNotice i l h.id (BitVec.ofNat 8 h.reason) h.kind h.level remover effective bySweep s)

/-- The reason byte of the next HOLD_REMOVED notice of an overflow flag (DESIGN CHOICE log 9). -/
def overflowReason (s : State) : Byte :=
  match s.link.notice with
  | none => 0
  | some a => Config.overflowReason (portNumber (noticePort s a)) (getPort s (noticePort s a)).handed

/-- A lot's overflow flag is cleared, notified, and the effect of a blocking hold's removal made (R151). -/
def clearOverflow (i : SlotId) (remover : Addr) (effective : Level) (s : State) : State :=
  match getLot s i with
  | none => s
  | some l =>
    let s := setLot i (some { l with overflow := false }) s
    afterRemoval i true
      (holdRemovedNotice i l 0 (overflowReason s) .blocking 0 remover effective false s)

/-! ## Sweeps (R155, R156) -/

/-- A hold of a lot matches a sweep (R155). -/
def sweepMatches (w : Sweep) (l : Lot) (h : Hold) : Bool :=
  h.reason == w.reason
    && (match w.product with
        | some p => l.product == p
        | none => true)
    && (match w.origin with
        | some o => h.origin == o
        | none => true)

/-- The examination of a lot's holds, oldest first: the sweep state and the machine after it, and how the
sweep ended if it did (R155). -/
def sweepHolds (i : SlotId) (l : Lot) : List Hold → Sweep → State → Option SweepEnd × Sweep × State
  | [], w, s => (none, w, s)
  | h :: rest, w, s =>
    if sweepMatches w l h then
      if h.level < w.captured then
        if w.stopOnRefusal then (some .refused, w, s) else sweepHolds i l rest w s
      else
        let s := removeHold i h w.asker.addr w.captured true s
        let w := { w with removed := w.removed + 1, remaining := w.remaining - 1 }
        if w.remaining = 0 then (some .count, w, s) else sweepHolds i l rest w s
    else sweepHolds i l rest w s

/-- The answer code of a sweep's end (R156). -/
def sweepCode : SweepEnd → AnswerCode
  | .refused => .authority
  | _ => .ok

/-- The sweep ends: its state is removed and its answer sent (R156). -/
def endSweep (w : Sweep) (how : SweepEnd) (next : Nat) (s : State) : State :=
  answer w.asker (commandNames .holdSweep) (sweepCode how)
    (num 2 w.removed ++ name (sweepEndCode how) ++ num 2 next) { s with sweep := none }

/-- The sweep goes on to the next slot, or ends after slot 255 (R155). -/
def advanceSweep (w : Sweep) (s : State) : State :=
  if 255 ≤ w.next then endSweep w .finished 256 s else { s with sweep := some { w with next := w.next + 1 } }

/-- One step of the running sweep (R155). -/
def stepSweep (w : Sweep) (s : State) : State :=
  if h : w.next < 256 then
    let i : SlotId := ⟨w.next, h⟩
    match getLot s i with
    | none => advanceSweep w s
    | some l =>
      match sweepHolds i l l.holds w s with
      | (some how, w, s) => endSweep w how w.next s
      | (none, w, s) => advanceSweep w s
  else endSweep w .finished 256 s

end Sys2Proof.Machine
end

