-- ==== Sys2Proof/Machine/BoundaryOps.lean ====
section
/-! DEFINITION. Lot boundary processing (R73 to R75, R78, R79) and the block wait. -/

namespace Sys2Proof.Machine

open Sys2Proof

/-- The block wait deadline set now: none where the group's limit is 0 (R79). -/
def blockWaitFrom (s : State) (c : CellId) : Option Nat :=
  if (groupOf s c).blockWait = 0 then none else some (s.mono + (groupOf s c).blockWait)

/-- A cell at its boundary becomes IDLE, with its latch clear and what else changes (R73). -/
def boundaryIdle (c : CellId) (also : Cell → Cell) (s : State) : State :=
  enterCellState c .idle (fun x => also (clearLatch x)) s

/-- The reservation of a cell whose lot was unloaded: with lots remaining it waits, otherwise it is cleared
(R73, step 3). -/
def unloadedReservation (deadline : Option Nat) (x : Cell) : Cell :=
  if x.reserved.isSome && decide (0 < x.blockRemaining) then { x with blockDeadline := deadline }
  else clearReservation x

/-- The choice at a boundary, started at once, or what happens where there is none (R75, R78). -/
def startOrElse (c : CellId) (choice : Option SlotId) (otherwise : State → State) (s : State) : State :=
  match choice with
  | some i => startLot i c (pair i c s)
  | none => otherwise s

/-- The mode step of a lot boundary (R74, R75, R78). -/
def boundaryMode (c : CellId) (s : State) : State :=
  let x := getCell s c
  match x.mode with
  | .single => boundaryIdle c id s
  | .successive => startOrElse c (choose s c (programMatches s c)) (boundaryIdle c id) s
  | .block =>
    if x.reserved.isNone || x.blockRemaining == 0 then boundaryIdle c clearReservation s
    else
      startOrElse c (choose s c fun _ => true)
        (boundaryIdle c fun y => { setLatch s.mono y with blockDeadline := blockWaitFrom s c }) s

/-- Lot boundary processing of a cell that carries no lot; `unloaded` says that the boundary came at a taken
UNLOADED (R73). -/
def lotBoundary (c : CellId) (unloaded : Bool) (s : State) : State :=
  if owesCorrelation (getCell s c) then correlationStart c s
  else
    let s := endReturnedCover c s
    if !mayTakeWork s c then boundaryIdle c clearReservation s
    else if unloaded then boundaryIdle c (unloadedReservation (blockWaitFrom s c)) s
    else boundaryMode c s

end Sys2Proof.Machine
end

