-- ==== Sys2Proof/Machine/Link.lean ====
section
/-! DEFINITION. The path of a received dialogue frame through the Link Unit: header checks (R179), station
check (R180), the rule of its kind (R181), authority (R185) and commissioning (R192). -/

namespace Sys2Proof.Machine

open Sys2Proof

/-! ## Header and station checks -/

/-- The director's own address by which a frame is judged: the one in force when it was received (R189). -/
def judgedOwn (f : Frame) (s : State) : Addr := f.heardAs.getD s.link.own

/-- A frame is addressed to the director. -/
def forDirector (f : Frame) (s : State) : Bool := f.hdr.dst == judgedOwn f s

/-- The station table entry of a frame's source, where its side is that of the port (R180). -/
def knownStation (f : Frame) (s : State) : Option Station :=
  match stationAt s f.hdr.src with
  | some st => if st.side = f.port then some st else none
  | none => none

/-- What R179, R180 and R192 settle about a dialogue frame. -/
def linkFate (f : Frame) (s : State) : Fate :=
  if headerBad f.hdr then .discard
  else if headerPassesBy f.hdr then .pass
  else match s.mode with
    | .commissioning =>
      if f.port = .cell then .pass
      else if forDirector f s then .openToDirector
      else .openAcross (stationAt s f.hdr.src)
    | .operating =>
      match knownStation f s with
      | none => if forDirector f s then .stranger else .strangerPass
      | some st => if forDirector f s then .toDirector st else .across st

/-- A frame from an unknown station is counted; addressed to the director it is answered, otherwise it is
forwarded (R180). `names` are what the answer names the request with (DESIGN CHOICE log 23). -/
def fromStranger (names : List Byte) (f : Frame) (s : State) : State :=
  answer (askerOf f) names .unknownStation [] (count .unknownStation s)

/-! ## Director commands -/

/-- The level a frame asks for; above 3 it is read as 3 (Table 10-1). -/
def requestedLevel (b : Byte) : Level := ⟨min b.toNat 3, by omega⟩

/-- The effective level: the numerically greater of the station's level and the requested one (R185). -/
def effectiveLevel (st : Station) (f : Frame) : Level :=
  if st.level < requestedLevel f.hdr.level then requestedLevel f.hdr.level else st.level

/-- The roles that may send director commands (R185). -/
def mayCommand : Role → Bool
  | .floor | .engineering | .supervisor | .console => true
  | _ => false

/-- A COMMAND frame naming a command of Table 10-5 with its required level: it is discarded, forwarded,
answered AUTHORITY or UNKNOWN_STATION, or handed on with its effective level (R179 to R181, R185, R192).
`lead` is the command byte and action byte of the frame. -/
def onCommand (c : Command) (need : Level) (lead : List Byte) (f : Frame) (act : Level → State → State)
    (s : State) : State :=
  match linkFate f s with
  | .discard => count .malformed s
  | .pass | .openAcross _ | .across _ => forward (kindByte .command) lead f s
  | .stranger => fromStranger (commandNames c) f s
  | .strangerPass => forward (kindByte .command) lead f (count .unknownStation s)
  | .openToDirector => act 0 s
  | .toDirector st =>
    if !mayCommand st.role then reply c f .authority [] s
    else if need < effectiveLevel st f then reply c f .authority [] s
    else act (effectiveLevel st f) s

/-- A director command other than CELL_SET. -/
def onPlainCommand (c : Command) (need : Level) (f : Frame) (act : Level → State → State) (s : State) : State :=
  onCommand c need (commandLead c) f act s

/-- A CELL_SET action; every action's required level is at most 1 (section 3.3). -/
def onCellSet (a : CellAction) (f : Frame) (act : State → State) (s : State) : State :=
  onCommand .cellSet 1 (cellSetLead a) f (fun _ => act) s

/-! ## QA_RESULT and SHIP_REQUEST -/

/-- A request judged by role: the block is given the station's role, none while COMMISSIONING, when no role
is checked (R181, R192). -/
def onRequest (k : Kind) (f : Frame) (act : Option Role → State → State) (s : State) : State :=
  match linkFate f s with
  | .discard => count .malformed s
  | .pass | .openAcross _ | .across _ => forward (kindByte k) [] f s
  | .stranger => fromStranger [kindByte k] f s
  | .strangerPass => forward (kindByte k) [] f (count .unknownStation s)
  | .openToDirector => act none s
  | .toDirector st => act (some st.role) s

/-! ## Equipment frames -/

/-- WORK_REQUEST, CORR_RESULT and CORR_END are consumed (R181). -/
def consumedKind : Kind → Bool
  | .workRequest | .corrResult | .corrEnd => true
  | _ => false

/-- The forwarded copy of an equipment frame from a known station, handed on before its action (R178). -/
def passOn (k : Kind) (f : Frame) (s : State) : State :=
  if consumedKind k then s else forward (kindByte k) [] f s

/-- The cell an equipment frame is attributed to: the one its source's entry names, when the source is
that cell's configured station for the frame's kind (R38, R181). -/
def attribution (side : EquipmentSide) (st : Station) (f : Frame) (s : State) : Option CellId :=
  if st.role = .tester ∨ st.role = .handler then
    match st.cell with
    | some c =>
      let x := getCell s c
      let station := match side with
        | .tester => x.tester
        | .handler => x.handler
      if configured x && station == some f.hdr.src then some c else none
    | none => none
  else none

/-- The counter of an equipment frame that fails its source check, its length check, or both (R38, R181;
both, DESIGN CHOICE log 7); `none` when it passes. -/
def equipmentFault (sourceOk lengthOk : Bool) : Option Counter :=
  match sourceOk, lengthOk with
  | true, true => none
  | false, true => some .badState
  | true, false => some .malformed
  | false, false => some (if Config.lengthBeforeSource then .malformed else .badState)

/-- A frame of a kind testers or handlers send, once from a known station on another destination: it is
forwarded as its kind requires, then counted or handed to the block with its cell. -/
def judgeEquipment (k : Kind) (length : Nat) (source : Option CellId) (f : Frame) (act : CellId → State → State)
    (s : State) : State :=
  let s := passOn k f s
  match equipmentFault source.isSome (f.body.length == length), source with
  | some counter, _ => count counter s
  | none, some c => act c s
  | none, none => s

/-- An equipment frame of a cell-side kind (R179 to R181, R38, R192, DEDUCED log 13). -/
def onEquipment (k : Kind) (side : EquipmentSide) (length : Nat) (f : Frame) (act : CellId → State → State)
    (s : State) : State :=
  match linkFate f s with
  | .discard => count .malformed s
  | .pass | .openAcross _ => forward (kindByte k) [] f s
  | .stranger => fromStranger [kindByte k] f s
  | .strangerPass => forward (kindByte k) [] f (count .unknownStation s)
  | .openToDirector | .toDirector _ => count .malformed s
  | .across st => judgeEquipment k length (attribution side st f s) f act s

/-- The cell a floor-side frame of the file server names by its destination (R87, R89). -/
def fileServerTarget (st : Station) (f : Frame) (s : State) : Option CellId :=
  if st.role = .fileServer then cellOfTester s f.hdr.dst else none

/-- A LOAD_SEGMENT or a floor-side LOAD_ABORT (R87, R89); while COMMISSIONING one from a source absent from the
station table is forwarded and not counted, whatever its destination (R192). -/
def onFloorLoad (k : Kind) (length : Option Nat) (f : Frame) (act : CellId → State → State) (s : State) : State :=
  match linkFate f s with
  | .discard => count .malformed s
  | .pass | .openAcross none => forward (kindByte k) [] f s
  | .stranger => fromStranger [kindByte k] f s
  | .strangerPass => forward (kindByte k) [] f (count .unknownStation s)
  | .openToDirector => if (stationAt s f.hdr.src).isNone then forward (kindByte k) [] f s else count .malformed s
  | .toDirector _ => count .malformed s
  | .openAcross (some st) | .across st =>
    judgeEquipment k (length.getD f.body.length) (fileServerTarget st f s) f act s

/-! ## Frames without a row of their own -/

/-- A COMMAND frame addressed to the director whose body names no command or no action: MALFORMED, after
the role check, and for CELL_SET after the level check (R40, R185, DESIGN CHOICE log 26). -/
def namelessCommand (f : Frame) (station : Option Station) (s : State) : State :=
  let first := f.body.headD 0
  let names := [kindByte .command, first]
  match station with
  | none => answer (askerOf f) names .malformed [] s
  | some st =>
    if !mayCommand st.role then answer (askerOf f) names .authority [] s
    else if first.toNat = commandCode .cellSet ∧ 1 < effectiveLevel st f then answer (askerOf f) names .authority [] s
    else answer (askerOf f) names .malformed [] s

/-- A dialogue frame of a kind that is not acted on (R179 to R181, R192). -/
def onUnrecognised (kind : Byte) (f : Frame) (s : State) : State :=
  match linkFate f s with
  | .discard => count .malformed s
  | .pass | .openAcross _ | .across _ => forward kind [] f s
  | .stranger =>
    fromStranger (if kind = kindByte .command then [kind, f.body.headD 0] else [kind]) f s
  | .strangerPass => forward kind [] f (count .unknownStation s)
  | .openToDirector => if kind = kindByte .command then namelessCommand f none s else count .malformed s
  | .toDirector st => if kind = kindByte .command then namelessCommand f (some st) s else count .malformed s

end Sys2Proof.Machine
end

