-- ==== Sys2Proof/Machine/Operands.lean ====
section
/-! DEFINITION. The operand forms: what the body of each frame carries, read by R182. A reader answers
`none` for a body of the wrong length and for a value that its rule refuses MALFORMED at its first check;
clamping is the meaning's. -/

namespace Sys2Proof.Machine

open Sys2Proof

/-! ## Equipment frames and requests -/

/-- What a TD_RESULT carries (Table 10-2). -/
structure TdBody where
  number : Nat
  pass   : Nat
  sites  : SiteSet
  codes  : Vector Byte 16
deriving DecidableEq, Repr

/-- The body of a TD_RESULT (Table 10-2). -/
def readTdResult (b : List Byte) : Option TdBody := whole do
  let (number, b) ← readNum 4 b
  let (pass, b) ← readNum 1 b
  let (sites, b) ← readWord b
  let (codes, b) ← readIdent 16 b
  return (⟨number, pass, sites, codes⟩, b)

/-- What a LOT_END carries (Table 9-1). -/
structure LotEndBody where
  pass      : Nat
  goodOut   : Nat
  rejectOut : Nat
deriving DecidableEq, Repr

/-- The body of a LOT_END (Table 9-1). -/
def readLotEnd (b : List Byte) : Option LotEndBody := whole do
  let (pass, b) ← readNum2 b
  let (good, b) ← readNum2 b
  let (reject, b) ← readNum2 b
  return (⟨pass, good, reject⟩, b)

/-- The body of a PROGRAM_READY: identifier and version (R88). -/
def readProgramReady (b : List Byte) : Option ProgramName := whole (readProgram b)

/-- The body of a CORR_RESULT: serial and bin code (R130). A code above 255, which the code's two bytes can carry and
its range does not hold, is read as it stands (DESIGN CHOICE log 34). -/
def readCorrResult (b : List Byte) : Option GoldenResult := whole do
  let (serial, b) ← readNum2 b
  let (code, b) ← readNum2 b
  return (⟨serial, code⟩, b)

/-- The body of a QA_RESULT: sample size and rejects (section 9.4). -/
def readQaResult (b : List Byte) : Option (Nat × Nat) := whole do
  let (sample, b) ← readNum2 b
  let (rejects, b) ← readNum2 b
  return ((sample, rejects), b)

/-! ## Lots and the queue -/

/-- What a LOT_ENTER's body carries (section 1.5). -/
structure LotEnterBody where
  product : ProductIdent
  qty     : Nat
  byte    : Nat
deriving DecidableEq, Repr

/-- The body of a LOT_ENTER; the class is one byte. -/
def readLotEnter (b : List Byte) : Option LotEnterBody := whole do
  let (product, b) ← readIdent 12 b
  let (qty, b) ← readNum2 b
  let (byte, b) ← readNum 1 b
  return (⟨product, qty, byte⟩, b)

/-- A class byte above 3 is clamped to 3 (R9, R13). -/
def clampClass (byte : Nat) : Fin 4 := ⟨min byte 3, by omega⟩

/-- The body of a LOT_PRIORITY: the class byte (R13). -/
def readLotPriority (b : List Byte) : Option Nat := whole (readNum 1 b)

/-- The body of a LOT_QUERY: a slot index, read where the header names no lot (R16, DESIGN CHOICE log 22). -/
def readLotQuery (b : List Byte) : Option Nat := whole (readNum2 b)

/-- The body of a QUEUE_READ: start position 0..255 and count 1..64 (R17). -/
def readQueueRead (b : List Byte) : Option (Nat × Nat) :=
  let body : Option (Nat × Nat) := whole do
    let (start, b) ← readNum2 b
    let (n, b) ← readNum2 b
    return ((start, n), b)
  body.bind fun q => if q.1 ≤ 255 ∧ 1 ≤ q.2 ∧ q.2 ≤ 64 then some q else none

/-- A body with no items. -/
def readNothing (b : List Byte) : Option Unit := if b.isEmpty then some () else none

/-! ## Configuration tables -/

/-- Every field of Table 2-2 that PRODUCT_WRITE carries, as carried. An index or class beyond its range is
refused MALFORMED (R21). -/
def readProductFields (b : List Byte) : Option (Product × List Byte) := do
  let (ident, b) ← readIdent 12 b
  let (program, b) ← readProgram b
  let (testerClass, b) ← readIndex 8 b
  let (kit, b) ← readIndex 16 b
  let (passBins, b) ← readWord b
  let (retestBins, b) ← readWord b
  let (maxRetest, b) ← readNum2 b
  let (minSample, b) ← readNum2 b
  let (yieldFloor, b) ← readNum2 b
  let (limits, b) ← readMany (readOpt 2 readNum2) 16 b
  let (expectedYield, b) ← readNum2 b
  let (driftFloor, b) ← readNum2 b
  let (failRunLimit, b) ← readNum2 b
  let (minActive, b) ← readNum2 b
  let (tdTimeout, b) ← readNum4 b
  let (lossAllowance, b) ← readNum2 b
  let (plan, b) ← readIndex 8 b
  let (levels, b) ← readMany readNum2 8 b
  return (Product.mk ident program testerClass kit passBins retestBins maxRetest minSample yieldFloor
    (Vector.ofFn fun i : Fin 16 => limits.getD i.val none) expectedYield driftFloor failRunLimit minActive
    tdTimeout lossAllowance plan (Vector.ofFn fun i : Fin 8 => clampClass (levels.getD i.val 0)) 0, b)

/-- The body of a PRODUCT_WRITE: index 0..63 and the fields. -/
def readProductWrite (b : List Byte) : Option (ProductId × Product) := whole do
  let (i, b) ← readIndex 64 b
  let (p, b) ← readProductFields b
  return ((i, p), b)

/-- The body of a PRODUCT_DELETE: index 0..63. -/
def readProductDelete (b : List Byte) : Option ProductId := whole (readIndex 64 b)

/-- The body of a PROGRAM_WRITE: identifier, version, segment count (R25). -/
def readProgramWrite (b : List Byte) : Option Program := whole do
  let (name, b) ← readProgram b
  let (segments, b) ← readNum2 b
  return (⟨name, segments⟩, b)

/-- The body of a PROGRAM_DELETE: identifier and version (R26). -/
def readProgramDelete (b : List Byte) : Option ProgramName := whole (readProgram b)

/-- The body of a PLAN_WRITE: plan index 0..7 and a list of tiers (R27). -/
def readPlanWrite (b : List Byte) : Option (PlanId × List Tier) := whole do
  let (i, b) ← readIndex 8 b
  let (tiers, b) ← readList readTier b
  return ((i, tiers), b)

/-- The body of a GROUP_WRITE: group 0..7 and every field of Table 2-5, as carried. A standby above 31 or
an expected bin above 15 is refused MALFORMED (R29). -/
def readGroupWrite (b : List Byte) : Option (GroupId × Group) := whole do
  let (i, b) ← readIndex 8 b
  let (standby, b) ← readOpt 2 (readIndex 32) b
  let (iirCode, b) ← readNum2 b
  let (golden, b) ← readList readGolden b
  let (allowed, b) ← readNum2 b
  let (corrInterval, b) ← readNum2 b
  let (corrTimeout, b) ← readNum4 b
  let (loadTimeout, b) ← readNum4 b
  let (unloadTimeout, b) ← readNum4 b
  let (loadRetries, b) ← readNum2 b
  let (blockWait, b) ← readNum4 b
  return ((i, Group.mk standby iirCode golden allowed corrInterval corrTimeout loadTimeout unloadTimeout
    loadRetries blockWait), b)

/-- The body of a GOLDEN_WRITE: group 0..7 and a golden set (R32). -/
def readGoldenWrite (b : List Byte) : Option (GroupId × List Golden) := whole do
  let (i, b) ← readIndex 8 b
  let (golden, b) ← readList readGolden b
  return ((i, golden), b)

/-- The body of an OFFSET_WRITE: cell 0..31, product identifier, signed offset (R33). -/
def readOffsetWrite (b : List Byte) : Option (CellId × ProductIdent × Int) := whole do
  let (c, b) ← readIndex 32 b
  let (product, b) ← readIdent 12 b
  let (value, b) ← readSigned b
  return ((c, product, value), b)

/-- An entry that TABLE_READ names, of one of the five tables in the order of R35. -/
inductive TableEntry where
  | product (i : ProductId)
  | program (i : ProgramIx)
  | plan (i : PlanId)
  | group (i : GroupId)
  | offset (c : CellId) (product : ProductIdent)
deriving DecidableEq, Repr

/-- The body of a TABLE_READ: the table's byte, then an index, or a cell and a product identifier (R35). -/
def readTableRead (b : List Byte) : Option TableEntry :=
  match b with
  | 1 :: b => (whole (readIndex 64 b)).map .product
  | 2 :: b => (whole (readIndex 48 b)).map .program
  | 3 :: b => (whole (readIndex 8 b)).map .plan
  | 4 :: b => (whole (readIndex 8 b)).map .group
  | 5 :: b => whole do
    let (c, b) ← readIndex 32 b
    let (product, b) ← readIdent 12 b
    return (.offset c product, b)
  | _ => none

/-! ## Cells -/

/-- A body that names a cell 0..31 and nothing else. -/
def readCell (b : List Byte) : Option CellId := whole (readIndex 32 b)

/-- The configuration fields of Table 3-1 as CONFIGURE carries them (R41, DESIGN CHOICE log 15). -/
structure ConfigureBody where
  cell        : CellId
  tester      : Addr
  handler     : Addr
  group       : GroupId
  testerClass : Fin 8
  kit         : Fin 16
  siteCount   : Nat
  mode        : CellMode
  blockCode   : Fin 16
  source      : RequestSource
deriving DecidableEq, Repr

/-- A station address that equipment may have: 1..65534 (Table 3-1). -/
def stationAddress (a : Addr) : Bool := a != 0 && a != 65535

/-- The body of a CELL_SET CONFIGURE that passes R40 and the first check of R41. An absent station reads
as station 0. -/
def readConfigure (b : List Byte) : Option ConfigureBody :=
  let body : Option ConfigureBody := whole do
    let (cell, b) ← readIndex 32 b
    let (tester, b) ← readOpt 2 readWord b
    let (handler, b) ← readOpt 2 readWord b
    let (group, b) ← readIndex 8 b
    let (testerClass, b) ← readIndex 8 b
    let (kit, b) ← readIndex 16 b
    let (siteCount, b) ← readNum2 b
    let (mode, b) ← readName [.single, .successive, .block] b
    let (blockCode, b) ← readIndex 16 b
    let (source, b) ← readName [.handler, .floor, .either] b
    return (ConfigureBody.mk cell (tester.getD 0) (handler.getD 0) group testerClass kit siteCount mode blockCode
      source, b)
  body.bind fun q =>
    if stationAddress q.tester && stationAddress q.handler && q.tester != q.handler && decide (1 ≤ q.siteCount)
      && decide (q.siteCount ≤ 16) then some q else none

/-- The body of a CELL_SET SITE_RESTORE: cell 0..31 and a set of sites (R47). -/
def readSiteRestore (b : List Byte) : Option (CellId × SiteSet) := whole do
  let (c, b) ← readIndex 32 b
  let (sites, b) ← readWord b
  return ((c, sites), b)

/-! ## Holds -/

/-- What a HOLD_PLACE's body carries (section 8.2). -/
structure HoldPlaceBody where
  reason : Nat
  kind   : HoldKind
  level  : Option Level
deriving DecidableEq, Repr

/-- The body of a HOLD_PLACE that passes the first check of R142. -/
def readHoldPlace (b : List Byte) : Option HoldPlaceBody :=
  let body : Option HoldPlaceBody := whole do
    let (reason, b) ← readNum 1 b
    let (kind, b) ← readName [.blocking, .advisory] b
    let (level, b) ← readOpt 2 (readIndex 4) b
    return (⟨reason, kind, level⟩, b)
  body.bind fun q => if 1 ≤ q.reason ∧ q.reason ≤ 127 then some q else none

/-- The body of a HOLD_RELEASE: a hold id (R150, R151). -/
def readHoldRelease (b : List Byte) : Option Nat := whole (readNum2 b)

/-- What a HOLD_SWEEP's body carries (R154). -/
structure SweepBody where
  reason        : Nat
  product       : Option ProductIdent
  origin        : Option HoldOrigin
  start         : Nat
  maxCount      : Nat
  stopOnRefusal : Bool
deriving DecidableEq, Repr

/-- An origin that a sweep may name: AUTO or a station address 1..65534 (R154). -/
def sweepOrigin : Option HoldOrigin → Bool
  | some (.station a) => stationAddress a
  | _ => true

/-- The body of a HOLD_SWEEP that passes the first check of R154. -/
def readSweep (b : List Byte) : Option SweepBody :=
  let body : Option SweepBody := whole do
    let (reason, b) ← readNum 1 b
    let (product, b) ← readOpt 12 (readIdent 12) b
    let (origin, b) ← readOpt 3 readOrigin b
    let (start, b) ← readNum2 b
    let (maxCount, b) ← readNum2 b
    let (stop, b) ← readFlag b
    return (SweepBody.mk reason product origin start maxCount stop, b)
  body.bind fun q =>
    if 1 ≤ q.reason ∧ q.reason ≤ 136 ∧ q.start ≤ 255 ∧ 1 ≤ q.maxCount ∧ q.maxCount ≤ 256 ∧ sweepOrigin q.origin then
      some q
    else none

/-! ## Link Unit -/

/-- The roles in the order of Table 10-4. -/
def roles : List Role :=
  [.floor, .engineering, .supervisor, .console, .tester, .handler, .fileServer, .qa, .dock]

/-- A role that belongs to a cell's equipment (Table 10-4). -/
def equipmentRole (r : Role) : Bool := r == .tester || r == .handler

/-- The body of a STATION_WRITE that passes the first check of R183, but for the comparison with the
director's own address: index 0..63 and every field of Table 10-4. -/
def readStationWrite (b : List Byte) : Option (StationIx × Station) :=
  let body : Option (StationIx × Station) := whole do
    let (i, b) ← readIndex 64 b
    let (address, b) ← readWord b
    let (role, b) ← readName roles b
    let (level, b) ← readIndex 4 b
    let (side, b) ← readName [.cell, .floor] b
    let (cell, b) ← readOpt 2 (readIndex 32) b
    return ((i, Station.mk address role level side cell), b)
  body.bind fun q =>
    if stationAddress q.2.address && (if equipmentRole q.2.role then q.2.cell.isSome && q.2.side == .cell
        else q.2.cell.isNone && q.2.side == .floor) then some q else none

/-- The body of a STATION_DELETE or STATION_READ: index 0..63. -/
def readStationIx (b : List Byte) : Option StationIx := whole (readIndex 64 b)

/-- The body of a LINK_WRITE that passes the first check of R189. -/
def readLinkWrite (b : List Byte) : Option LinkConfig :=
  let body : Option LinkConfig := whole do
    let (own, b) ← readWord b
    let (frameType, b) ← readWord b
    let (notice, b) ← readOpt 2 readWord b
    let (aging, b) ← readNum4 b
    return (⟨own, frameType, notice, aging⟩, b)
  body.bind fun q =>
    if stationAddress q.own && decide (0x0600 ≤ q.frameType.toNat)
      && (match q.notice with
          | some a => stationAddress a
          | none => true) then some q else none

/-- The body of a TIME_SET: a 32-bit floor time (R191). -/
def readTimeSet (b : List Byte) : Option Nat := whole (readNum4 b)

/-- The body of a COUNTERS_READ: the clear indication (R182, R188). -/
def readCountersRead (b : List Byte) : Option Bool := whole (readFlag b)

end Sys2Proof.Machine
end

