-- ==== Sys2Proof/Machine/CellTable.lean ====
section
/-! DEFINITION. The Cell Table's commands: the CELL_SET actions, UNLOAD, CELL_QUERY, STOPPED, UNLOADED and the
touchdown and unload expiries (Chapter 3). BLOCK_END and COVER_END belong to Chapters 4 and 7. -/

namespace Sys2Proof.Machine

open Sys2Proof

/-- The answer OK of a taken CELL_SET or UNLOAD: the cell's state as it then stands (R40, R58). -/
def replyState (cmd : Command) (f : Frame) (c : CellId) (s : State) : State :=
  reply cmd f .ok (name (cellStateCode (getCell s c).state)) s

/-! ## CONFIGURE (R41, R42) -/

/-- Another cell has a station among its configured ones (R41). -/
def stationTaken (s : State) (c : CellId) (a : Addr) : Bool :=
  allCells.any fun d => d != c && ((getCell s d).tester == some a || (getCell s d).handler == some a)

/-- The present group names the cell its standby and the command names another group (R41). -/
def standbyMoves (s : State) (q : ConfigureBody) : Bool := q.group != (getCell s q.cell).group && isStandby s q.cell

/-- The command changes the cell's equipment, or configures it first (R42). -/
def equipmentChanged (x : Cell) (q : ConfigureBody) : Bool :=
  !configured x || x.tester != some q.tester || x.handler != some q.handler || x.group != q.group
    || x.testerClass != q.testerClass || x.kit != q.kit || x.siteCount != q.siteCount

/-- The command changes the tester or its class, or configures the cell first (R42). -/
def testerChanged (x : Cell) (q : ConfigureBody) : Bool :=
  !configured x || x.tester != some q.tester || x.testerClass != q.testerClass

/-- A cell's record after a taken CONFIGURE (R42). -/
def configuredCell (q : ConfigureBody) (x : Cell) : Cell :=
  { x with
    tester := some q.tester
    handler := some q.handler
    group := q.group
    testerClass := q.testerClass
    kit := q.kit
    siteCount := q.siteCount
    mode := q.mode
    blockCode := q.blockCode
    source := q.source
    installed := firstSites q.siteCount
    active := firstSites q.siteCount
    failRuns := Vector.replicate 16 0
    qual := if equipmentChanged x q then .unqualified else x.qual
    lastProduct := if equipmentChanged x q then none else x.lastProduct
    loaded := if testerChanged x q then none else x.loaded }

/-- A change of a covered cell's group ends the cover (R135). -/
def endCoverOf (c : CellId) (s : State) : State :=
  match actingStandby s c with
  | some t => endCover t s
  | none => s

/-- A taken CONFIGURE (R42, R135). -/
def configureCell (q : ConfigureBody) (s : State) : State :=
  modCell q.cell (configuredCell q) (if q.group ≠ (getCell s q.cell).group then endCoverOf q.cell s else s)

/-- CELL_SET CONFIGURE once its authority is settled (R40, R41). -/
def takeConfigure (f : Frame) (s : State) : State :=
  match readConfigure f.body with
  | none => reply .cellSet f .malformed [] s
  | some q =>
    if (getCell s q.cell).state ≠ .offline then reply .cellSet f .badState [] s
    else if standbyMoves s q then reply .cellSet f .inUse [] s
    else if stationTaken s q.cell q.tester || stationTaken s q.cell q.handler then reply .cellSet f .duplicate [] s
    else replyState .cellSet f q.cell (configureCell q s)

/-- CELL_SET CONFIGURE (R41, R42). -/
def execCellSetConfigure (f : Frame) (s : State) : Host.Outcome State Fault Refusal :=
  .next (onCellSet .configure f (takeConfigure f) s)

/-! ## ENABLE and DISABLE (R43, R44) -/

/-- The station table holds a station with a role and a cell (R43). -/
def stationServes (s : State) (a : Option Addr) (r : Role) (c : CellId) : Bool :=
  s.stations.toList.any fun e =>
    match e with
    | some st => some st.address == a && st.role == r && st.cell == some c
    | none => false

/-- The checks of ENABLE: the code of the first that fails (R43). -/
def enableRefusal (s : State) (c : CellId) : Option AnswerCode :=
  let x := getCell s c
  if x.state ≠ .offline ∧ x.state ≠ .down then some .badState
  else if !configured x || s.groups[x.group].isNone then some .badState
  else if !(stationServes s x.tester .tester c && stationServes s x.handler .handler c) then some .unknownStation
  else none

/-- A taken ENABLE (R43). -/
def enableCell (c : CellId) (s : State) : State :=
  let x := getCell s c
  if x.state = .offline ∧ (x.qual = .qualified ∨ x.qual = .soaking) then enterCellState c .idle clearLatch s
  else correlationStart c s

/-- CELL_SET ENABLE once its authority is settled (R40, R43). -/
def takeEnable (f : Frame) (s : State) : State :=
  match readCell f.body with
  | none => reply .cellSet f .malformed [] s
  | some c =>
    match enableRefusal s c with
    | some code => reply .cellSet f code [] s
    | none => replyState .cellSet f c (enableCell c s)

/-- CELL_SET ENABLE (R43). -/
def execCellSetEnable (f : Frame) (s : State) : Host.Outcome State Fault Refusal :=
  .next (onCellSet .enable f (takeEnable f) s)

/-- A taken DISABLE (R44). -/
def disableCell (c : CellId) (s : State) : State :=
  let s := if isStandby s c && (getCell s c).actingFor.isSome then endCover c s else s
  enterCellState c .offline (fun x => { clearReservation (clearLatch x) with downReason := none }) s

/-- CELL_SET DISABLE once its authority is settled (R40, R44). -/
def takeDisable (f : Frame) (s : State) : State :=
  match readCell f.body with
  | none => reply .cellSet f .malformed [] s
  | some c =>
    if (getCell s c).state = .idle ∨ (getCell s c).state = .down then replyState .cellSet f c (disableCell c s)
    else reply .cellSet f .badState [] s

/-- CELL_SET DISABLE (R44). -/
def execCellSetDisable (f : Frame) (s : State) : Host.Outcome State Fault Refusal :=
  .next (onCellSet .disable f (takeDisable f) s)

/-! ## SITE_RESTORE (R47) -/

/-- A cell's record with sites restored (R47). -/
def restoredCell (sites : SiteSet) (x : Cell) : Cell :=
  { x with
    active := x.active ||| sites
    failRuns := Vector.ofFn fun k : Site => if inSet sites k then 0 else x.failRuns[k] }

/-- Sites restored; a waiting cell whose active count rose chooses (R47, R67). -/
def restoreSites (c : CellId) (sites : SiteSet) (s : State) : State :=
  let before := size (getCell s c).active
  let s := modCell c (restoredCell sites) s
  if before < size (getCell s c).active then chooseFor c s else s

/-- CELL_SET SITE_RESTORE once its authority is settled (R40, R47, DESIGN CHOICE log 25). -/
def takeSiteRestore (f : Frame) (s : State) : State :=
  match readSiteRestore f.body with
  | none => reply .cellSet f .malformed [] s
  | some (c, sites) =>
    if sites = 0 ∨ sites &&& ~~~(getCell s c).installed ≠ 0 then reply .cellSet f .malformed [] s
    else
      let s := restoreSites c sites s
      reply .cellSet f .ok (name (cellStateCode (getCell s c).state) ++ word16 (getCell s c).active) s

/-- CELL_SET SITE_RESTORE (R47). -/
def execCellSetSiteRestore (f : Frame) (s : State) : Host.Outcome State Fault Refusal :=
  .next (onCellSet .siteRestore f (takeSiteRestore f) s)

/-! ## RESUME and UNLOAD (R58, R59) -/

/-- CELL_SET RESUME is taken: a PAUSED cell, not SUSPECT, whose lot is not blocked (R59). -/
def mayResume (s : State) (c : CellId) : Bool :=
  (getCell s c).state == .paused && (getCell s c).qual != .suspect
    && match cellLot s c with
      | some (_, l) => !blocked l
      | none => false

/-- CELL_SET RESUME once its authority is settled (R40, R59). -/
def takeResume (f : Frame) (s : State) : State :=
  match readCell f.body with
  | none => reply .cellSet f .malformed [] s
  | some c =>
    if mayResume s c then replyState .cellSet f c (resume c s) else reply .cellSet f .badState [] s

/-- CELL_SET RESUME (R59). -/
def execCellSetResume (f : Frame) (s : State) : Host.Outcome State Fault Refusal :=
  .next (onCellSet .resume f (takeResume f) s)

/-- The effect of a taken UNLOAD command by the cell's state; `none` where it is refused (R58). -/
def unloadEffect (c : CellId) (s : State) : Option State :=
  match (getCell s c).state with
  | .running | .stopping => some (stopRequest c .unload s)
  | .paused | .stalled => some (sendUnload c s)
  | .offline | .idle | .loading | .unloading | .correlating | .down => none

/-- UNLOAD once its authority is settled (R58). -/
def takeUnload (f : Frame) (s : State) : State :=
  match readCell f.body with
  | none => reply .unload f .malformed [] s
  | some c =>
    match unloadEffect c s with
    | none => reply .unload f .badState [] s
    | some s => replyState .unload f c s

/-- UNLOAD (R58). -/
def execUnload (f : Frame) (s : State) : Host.Outcome State Fault Refusal :=
  .next (onPlainCommand .unload 1 f (fun _ => takeUnload f) s)

/-! ## CELL_QUERY (R60) -/

/-- The milliseconds left until a deadline, where it runs. -/
def remainingTime (s : State) (deadline : Option Nat) : List Byte := opt 4 (num 4) (deadline.map fun d => d - s.mono)

/-- The configuration fields as CELL_QUERY carries them (R60). -/
def configBytes (x : Cell) : List Byte :=
  opt 2 word16 x.tester ++ opt 2 word16 x.handler ++ index x.group ++ index x.testerClass ++ index x.kit
    ++ num 2 x.siteCount ++ name (modeCode x.mode) ++ index x.blockCode ++ name (sourceCode x.source)
    ++ flag (configured x)

/-- A load record as CELL_QUERY carries it: segment counts and attempts (R60). -/
def loadBytes (r : LoadRecord) : List Byte := num 2 r.expected ++ num 2 r.seen ++ num 2 r.attempts

/-- A cell's record as CELL_QUERY carries it (R60, DESIGN CHOICE log 25). -/
def cellBytes (s : State) (c : CellId) : List Byte :=
  let x := getCell s c
  let lot := (cellLot s c).map fun q => q.2
  configBytes x ++ name (cellStateCode x.state) ++ opt 1 (fun r => name (downReasonCode r)) x.downReason
    ++ name (intentCode x.intent) ++ opt 16 (fun l : Lot => l.ident.toList) lot
    ++ opt 1 (fun l : Lot => name (lotStateCode l.state)) lot
    ++ opt 12 (fun p => (productAt s p).ident.toList) x.lastProduct ++ opt 10 programBytes x.loaded ++ flag x.latch
    ++ num 6 x.latchTime ++ opt 2 index x.reserved ++ num 2 x.blockRemaining ++ word16 x.installed ++ word16 x.active
    ++ x.failRuns.toList.flatMap (num 2) ++ num 4 x.average ++ num 2 x.soak ++ num 2 x.sinceCorr
    ++ name (qualCode x.qual) ++ opt 2 index x.actingFor ++ remainingTime s x.tdDeadline
    ++ remainingTime s x.unloadDeadline ++ remainingTime s (x.load.map fun r => r.deadline)
    ++ remainingTime s (x.run.map fun r => r.deadline) ++ remainingTime s x.blockDeadline ++ opt 6 loadBytes x.load
    ++ opt 2 (fun r : RunRecord => num 2 r.results.length) x.run

/-- CELL_QUERY once its authority is settled (R60). -/
def takeCellQuery (f : Frame) (s : State) : State :=
  match readCell f.body with
  | none => reply .cellQuery f .malformed [] s
  | some c => reply .cellQuery f .ok (cellBytes s c) s

/-- CELL_QUERY (R60). -/
def execCellQuery (f : Frame) (s : State) : Host.Outcome State Fault Refusal :=
  .next (onPlainCommand .cellQuery 3 f (fun _ => takeCellQuery f) s)

/-! ## STOPPED (R50) -/

/-- A taken STOPPED acts by the exit intent (R50). -/
def stoppedEffect (c : CellId) (l : Lot) (s : State) : State :=
  let s := modCell c (fun x => { x with tdDeadline := none }) s
  match (getCell s c).intent with
  | .pause => pauseCell c s
  | .unload => sendUnload c s
  | .none => if blocked l then pauseCell c s else resume c s

/-- A STOPPED naming a lot is taken for a cell: its lot is that lot and is STOPPING (R50). -/
def stoppedTaken (x : Cell) (l : Lot) (named : LotIdent) : Bool :=
  l.ident == named && l.state == .stopping && (x.state == .stopping || x.state == .stalled)

/-- STOPPED of a cell (R50). -/
def takeStopped (f : Frame) (c : CellId) (s : State) : State :=
  match cellLot s c with
  | none => count .late s
  | some (_, l) => if stoppedTaken (getCell s c) l f.hdr.lot then stoppedEffect c l s else count .late s

/-- STOPPED (R50). -/
def execStopped (f : Frame) (s : State) : Host.Outcome State Fault Refusal :=
  .next (onEquipment .stopped .handler 0 f (takeStopped f) s)

/-! ## UNLOADED (R53, R126) -/

/-- The CELL_SUSPECT request for the lot of a SUSPECT cell (R126). -/
def suspectHold (c : CellId) (i : SlotId) (s : State) : State :=
  if (getCell s c).qual = .suspect then autoHold i .cellSuspect s else s

/-- An unloaded lot is detached: HELD when blocked, otherwise back in the queue (R53). -/
def detachUnloaded (i : SlotId) (c : CellId) (s : State) : State :=
  match getLot s i with
  | none => s
  | some l => if blocked l then detachTo i c .held s else joinQueue i (some c) (part i c s)

/-- A taken UNLOADED (R53). -/
def unloadedEffect (c : CellId) (i : SlotId) (s : State) : State :=
  let s := modCell c (fun x => { x with unloadDeadline := none }) s
  lotBoundary c true (detachUnloaded i c (suspectHold c i s))

/-- UNLOADED of a cell (R53). -/
def takeUnloaded (f : Frame) (c : CellId) (s : State) : State :=
  match cellLot s c with
  | none => count .late s
  | some (i, l) =>
    if (getCell s c).state = .unloading ∧ l.ident = f.hdr.lot then unloadedEffect c i s else count .late s

/-- UNLOADED (R53). -/
def execUnloaded (f : Frame) (s : State) : Host.Outcome State Fault Refusal :=
  .next (onEquipment .unloaded .handler 0 f (takeUnloaded f) s)

/-! ## Expiries (R54, R56) -/

/-- A deadline is present and reached (R190). -/
def reached (s : State) (deadline : Option Nat) : Bool :=
  match deadline with
  | some d => decide (d ≤ s.mono)
  | none => false

/-- The unload deadline of a cell has expired (R54, R126). -/
def unloadLost (c : CellId) (s : State) : State :=
  let s := modCell c (fun x => { x with unloadDeadline := none }) s
  match cellLot s c with
  | none => s
  | some (i, _) =>
    enterDown c .unloadLost (detachTo i c .held (suspectHold c i (autoHold i .material s)))

/-- UNLOAD_DEADLINE_EXPIRY; nothing before the deadline (R54, DESIGN CHOICE log 2). -/
def execUnloadDeadlineExpiry (c : CellId) (s : State) : Host.Outcome State Fault Refusal :=
  .next (if reached s (getCell s c).unloadDeadline then unloadLost c s else s)

/-- The touchdown deadline of a cell has expired: a RUNNING or STOPPING cell is STALLED (R56). -/
def stall (c : CellId) (s : State) : State :=
  if (getCell s c).state = .running ∨ (getCell s c).state = .stopping then
    enterCellState c .stalled (fun x => { x with tdDeadline := none }) s
  else modCell c (fun x => { x with tdDeadline := none }) s

/-- TOUCHDOWN_DEADLINE_EXPIRY; nothing before the deadline (R56, DESIGN CHOICE log 2). -/
def execTouchdownDeadlineExpiry (c : CellId) (s : State) : Host.Outcome State Fault Refusal :=
  .next (if reached s (getCell s c).tdDeadline then stall c s else s)

end Sys2Proof.Machine
end

