-- ==== Sys2Proof/Machine/ConfigTables.lean ====
section
/-! DEFINITION. The Configuration Tables' commands (Chapter 2). -/

namespace Sys2Proof.Machine

open Sys2Proof

/-- A change made to every cell, in ascending order (DESIGN CHOICE log 16). -/
def eachCell (change : CellId → State → State) (s : State) : State := allCells.foldl (fun s c => change c s) s

/-- A value brought into a range (section 0.5). -/
def clamp (low high value : Nat) : Nat := if value < low then low else if high < value then high else value

/-! ## Products (R21 to R24) -/

/-- The fields of a product as stored: clamped, with the pass bins dropped from retest bins and limits
(Table 2-2, R21). -/
def storedProduct (p : Product) : Product :=
  { p with
    retestBins := p.retestBins &&& ~~~p.passBins
    maxRetest := clamp 0 2 p.maxRetest
    minSample := clamp 1 65535 p.minSample
    yieldFloor := clamp 0 10000 p.yieldFloor
    binLimits := Vector.ofFn fun b : Bin =>
      if inSet p.passBins b then none else p.binLimits[b].map (clamp 0 10000)
    expectedYield := clamp 0 10000 p.expectedYield
    driftFloor := clamp 0 10000 p.driftFloor
    failRunLimit := if p.failRunLimit = 0 then 0 else clamp 2 31 p.failRunLimit
    minActive := clamp 1 16 p.minActive
    tdTimeout := clamp 1000 600000 p.tdTimeout
    inUse := 0 }

/-- The first check of R21 on the fields of a product. -/
def productMalformed (s : State) (p : Product) : Bool :=
  !identPrintable p.ident || p.passBins == 0 || inSet p.passBins 0 || s.plans[p.plan].isNone

/-- A product entry is defined and carries lots (R21, R23). -/
def productInUse (s : State) (i : ProductId) : Bool :=
  match s.products[i] with
  | some e => decide (0 < e.inUse)
  | none => false

/-- Another defined entry, at a different index, has an identifier (R21). -/
def productDuplicate (s : State) (i : ProductId) (ident : ProductIdent) : Bool :=
  (List.finRange 64).any fun j =>
    j != i && match s.products[j] with
      | some e => e.ident == ident
      | none => false

/-- A cell's last product cleared where it names an index (R22). -/
def forgetLastProduct (p : ProductId) (c : CellId) (s : State) : State :=
  modCell c (fun x => { x with lastProduct := if x.lastProduct = some p then none else x.lastProduct }) s

/-- A cell's reservation of an index cleared; a waiting cell so freed chooses (R22). -/
def freeReservation (p : ProductId) (c : CellId) (s : State) : State :=
  if (getCell s c).reserved = some p then chooseFor c (modCell c clearReservation s) else s

/-- The effects of R22 on cells, cells ascending (DESIGN CHOICE log 16). -/
def productChanged (p : ProductId) (s : State) : State :=
  eachCell (freeReservation p) (eachCell (forgetLastProduct p) s)

/-- A product entry stored, with the effects of R22 where it replaces one (R21, R22). -/
def storeProduct (i : ProductId) (p : Product) (s : State) : State :=
  let before := s.products[i]
  let s := { s with products := s.products.set i (some p) }
  if before.isSome then productChanged i s else s

/-- PRODUCT_WRITE once its authority is settled (R21). -/
def takeProductWrite (f : Frame) (s : State) : State :=
  match readProductWrite f.body with
  | none => reply .productWrite f .malformed [] s
  | some (i, p) =>
    if productMalformed s p then reply .productWrite f .malformed [] s
    else if productInUse s i then reply .productWrite f .inUse [] s
    else if productDuplicate s i p.ident then reply .productWrite f .duplicate [] s
    else if (findProgram s p.program).isNone then reply .productWrite f .unknownProgram [] s
    else reply .productWrite f .ok (productBytes (storedProduct p)) (storeProduct i (storedProduct p) s)

/-- PRODUCT_WRITE (R21). -/
def execProductWrite (f : Frame) (s : State) : Host.Outcome State Fault Refusal :=
  .next (onPlainCommand .productWrite 0 f (fun _ => takeProductWrite f) s)

/-- A product entry emptied with its offsets (R23). -/
def deleteProduct (i : ProductId) (s : State) : State :=
  let s := productChanged i s
  { s with offsets := s.offsets.filter (fun o => o.product != i), products := s.products.set i none }

/-- PRODUCT_DELETE once its authority is settled (R23). -/
def takeProductDelete (f : Frame) (s : State) : State :=
  match readProductDelete f.body with
  | none => reply .productDelete f .malformed [] s
  | some i =>
    if s.products[i].isNone then reply .productDelete f .unknownProduct [] s
    else if productInUse s i then reply .productDelete f .inUse [] s
    else
      reply .productDelete f .ok (num 2 (s.offsets.filter fun o => o.product == i).length) (deleteProduct i s)

/-- PRODUCT_DELETE (R23). -/
def execProductDelete (f : Frame) (s : State) : Host.Outcome State Fault Refusal :=
  .next (onPlainCommand .productDelete 0 f (fun _ => takeProductDelete f) s)

/-! ## Programs (R25, R26) -/

/-- A program's fields are refused (R25). -/
def programMalformed (p : Program) : Bool :=
  !identPrintable p.name.ident || decide (255 < p.name.version) || p.segments == 0 || decide (4096 < p.segments)

/-- The lowest-numbered free index of the library (R25). -/
def freeProgramIx (s : State) : Option ProgramIx := (List.finRange 48).find? fun i => s.programs[i].isNone

/-- A program entry replaced. -/
def setProgram (i : ProgramIx) (p : Option Program) (s : State) : State := { s with programs := s.programs.set i p }

/-- PROGRAM_WRITE once its authority is settled; its answer OK carries the index alone, not the values as stored
(R20, R25, DESIGN CHOICE log 36). -/
def takeProgramWrite (f : Frame) (s : State) : State :=
  match readProgramWrite f.body with
  | none => reply .programWrite f .malformed [] s
  | some p =>
    if programMalformed p then reply .programWrite f .malformed [] s
    else match findProgram s p.name with
      | some i =>
        if 0 < productsNaming s p.name then reply .programWrite f .inUse [] s
        else reply .programWrite f .ok (index i) (setProgram i (some p) s)
      | none =>
        match freeProgramIx s with
        | none => reply .programWrite f .full [] s
        | some i => reply .programWrite f .ok (index i) (setProgram i (some p) s)

/-- PROGRAM_WRITE (R25). -/
def execProgramWrite (f : Frame) (s : State) : Host.Outcome State Fault Refusal :=
  .next (onPlainCommand .programWrite 0 f (fun _ => takeProgramWrite f) s)

/-- PROGRAM_DELETE once its authority is settled (R26). -/
def takeProgramDelete (f : Frame) (s : State) : State :=
  match readProgramDelete f.body with
  | none => reply .programDelete f .malformed [] s
  | some p =>
    match findProgram s p with
    | none => reply .programDelete f .unknownProgram [] s
    | some i =>
      if 0 < productsNaming s p then reply .programDelete f .inUse [] s
      else reply .programDelete f .ok [] (setProgram i none s)

/-- PROGRAM_DELETE (R26). -/
def execProgramDelete (f : Frame) (s : State) : Host.Outcome State Fault Refusal :=
  .next (onPlainCommand .programDelete 0 f (fun _ => takeProgramDelete f) s)

/-! ## Sampling plans (R27) -/

/-- Max lot sizes strictly ascending (R27). -/
def tiersAscend : List Tier → Bool
  | a :: b :: rest => decide (a.maxLot < b.maxLot) && tiersAscend (b :: rest)
  | _ => true

/-- A list of tiers is refused (R27). -/
def tiersMalformed (tiers : List Tier) : Bool :=
  tiers.isEmpty || decide (6 < tiers.length) || tiers.any (fun t => t.maxLot == 0 || t.sample == 0)
    || !tiersAscend tiers

/-- A tier as stored: its accept number at most its sample size (R27). -/
def storedTier (t : Tier) : Tier := { t with accept := min t.accept t.sample }

/-- PLAN_WRITE once its authority is settled (R27). -/
def takePlanWrite (f : Frame) (s : State) : State :=
  match readPlanWrite f.body with
  | none => reply .planWrite f .malformed [] s
  | some (i, tiers) =>
    if tiersMalformed tiers then reply .planWrite f .malformed [] s
    else
      reply .planWrite f .ok (listOf tierBytes (tiers.map storedTier))
        { s with plans := s.plans.set i (some (tiers.map storedTier)) }

/-- PLAN_WRITE (R27). -/
def execPlanWrite (f : Frame) (s : State) : Host.Outcome State Fault Refusal :=
  .next (onPlainCommand .planWrite 0 f (fun _ => takePlanWrite f) s)

/-! ## Groups and golden sets (R29 to R32) -/

/-- A golden set is refused (R29, R32). -/
def goldenMalformed (golden : List Golden) : Bool :=
  golden.isEmpty || decide (16 < golden.length) || golden.any fun u => u.serial == 0

/-- Two golden units share a serial (R29, R32). -/
def goldenDuplicate : List Golden → Bool
  | [] => false
  | u :: rest => rest.any (fun v => v.serial == u.serial) || goldenDuplicate rest

/-- A standby that GROUP_WRITE names is no cell configured in the group (R29, DEDUCED log 18). -/
def standbyMalformed (s : State) (i : GroupId) (standby : Option CellId) : Bool :=
  match standby with
  | some c => !(configured (getCell s c) && (getCell s c).group == i)
  | none => false

/-- The third check of R29: a cell of the group is CORRELATING, or its standby covers. -/
def groupBusy (s : State) (i : GroupId) : Bool :=
  allCells.any (fun c => configured (getCell s c) && (getCell s c).group == i && (getCell s c).state == .correlating)
    || match s.groups[i].bind fun g : Group => g.standby with
      | some t => (getCell s t).actingFor.isSome
      | none => false

/-- A group's fields as stored (Table 2-5). -/
def storedGroup (g : Group) : Group :=
  { g with
    iirCode := clamp 1 6 g.iirCode
    allowed := clamp 0 15 g.allowed
    corrTimeout := clamp 10000 7200000 g.corrTimeout
    loadTimeout := clamp 1000 3600000 g.loadTimeout
    unloadTimeout := clamp 1000 3600000 g.unloadTimeout
    loadRetries := clamp 0 3 g.loadRetries
    blockWait := if g.blockWait = 0 then 0 else clamp 1000 86400000 g.blockWait }

/-- A newly named standby's latch is cleared (R31). -/
def newStandby (before after : Option CellId) (s : State) : State :=
  match after with
  | some c => if before = some c then s else modCell c clearLatch s
  | none => s

/-- A group entry stored, with the change of standby (R29, R31). -/
def storeGroup (i : GroupId) (g : Group) (s : State) : State :=
  newStandby (s.groups[i].bind fun g : Group => g.standby) g.standby { s with groups := s.groups.set i (some g) }

/-- GROUP_WRITE once its authority is settled (R29). -/
def takeGroupWrite (f : Frame) (s : State) : State :=
  match readGroupWrite f.body with
  | none => reply .groupWrite f .malformed [] s
  | some (i, g) =>
    if standbyMalformed s i g.standby || goldenMalformed g.golden then reply .groupWrite f .malformed [] s
    else if goldenDuplicate g.golden then reply .groupWrite f .duplicate [] s
    else if groupBusy s i then reply .groupWrite f .busy [] s
    else reply .groupWrite f .ok (groupBytes (storedGroup g)) (storeGroup i (storedGroup g) s)

/-- GROUP_WRITE (R29). -/
def execGroupWrite (f : Frame) (s : State) : Host.Outcome State Fault Refusal :=
  .next (onPlainCommand .groupWrite 0 f (fun _ => takeGroupWrite f) s)

/-- GOLDEN_WRITE once its authority is settled; its answer OK carries the number of units alone, not the set as stored
(R20, R32, DESIGN CHOICE log 36). -/
def takeGoldenWrite (f : Frame) (s : State) : State :=
  match readGoldenWrite f.body with
  | none => reply .goldenWrite f .malformed [] s
  | some (i, golden) =>
    if goldenMalformed golden then reply .goldenWrite f .malformed [] s
    else match s.groups[i] with
      | none => reply .goldenWrite f .badState [] s
      | some g =>
        if goldenDuplicate golden then reply .goldenWrite f .duplicate [] s
        else if groupBusy s i then reply .goldenWrite f .busy [] s
        else
          reply .goldenWrite f .ok (num 2 golden.length)
            { s with groups := s.groups.set i (some { g with golden := golden }) }

/-- GOLDEN_WRITE (R32). -/
def execGoldenWrite (f : Frame) (s : State) : Host.Outcome State Fault Refusal :=
  .next (onPlainCommand .goldenWrite 0 f (fun _ => takeGoldenWrite f) s)

/-! ## The correlation offset map (R33) -/

/-- An entry has a key. -/
def offsetKey (c : CellId) (p : ProductId) (o : Offset) : Bool := o.cell == c && o.product == p

/-- One key comes before another: the cell first, then the product (DESIGN CHOICE log 21). -/
def keyBefore (a b : Offset) : Bool :=
  decide (a.cell < b.cell) || (a.cell == b.cell && decide (a.product < b.product))

/-- An entry put in its place; an entry of the same key is replaced (DESIGN CHOICE log 21). -/
def insertOffset (o : Offset) : List Offset → List Offset
  | [] => [o]
  | a :: rest =>
    if offsetKey o.cell o.product a then o :: rest
    else if keyBefore o a then o :: a :: rest
    else a :: insertOffset o rest

/-- An offset clamped to -500..500 (R33). -/
def clampOffset (v : Int) : Int := if v < -500 then -500 else if 500 < v then 500 else v

/-- The map after a write of a clamped offset; `none` where it is full (R33). -/
def writeOffset (c : CellId) (p : ProductId) (v : Int) (offsets : List Offset) : Option (List Offset) :=
  if v = 0 then some (offsets.filter fun o => !offsetKey c p o)
  else if offsets.any (offsetKey c p) || decide (offsets.length < 256) then some (insertOffset ⟨c, p, v⟩ offsets)
  else none

/-- OFFSET_WRITE once its authority is settled (R33). -/
def takeOffsetWrite (f : Frame) (s : State) : State :=
  match readOffsetWrite f.body with
  | none => reply .offsetWrite f .malformed [] s
  | some (c, ident, v) =>
    match findProduct s ident with
    | none => reply .offsetWrite f .unknownProduct [] s
    | some p =>
      if (getCell s c).state = .correlating then reply .offsetWrite f .busy [] s
      else match writeOffset c p (clampOffset v) s.offsets with
        | none => reply .offsetWrite f .full [] s
        | some offsets =>
          reply .offsetWrite f .ok (signed (clampOffset v) ++ num 2 offsets.length) { s with offsets := offsets }

/-- OFFSET_WRITE (R33). -/
def execOffsetWrite (f : Frame) (s : State) : Host.Outcome State Fault Refusal :=
  .next (onPlainCommand .offsetWrite 1 f (fun _ => takeOffsetWrite f) s)

/-! ## TABLE_READ (R35) -/

/-- The code and contents that TABLE_READ answers for an entry (R35, DESIGN CHOICE log 25). A plan or a
group that is not defined is the indication alone, with no bytes after it (DESIGN CHOICE log 39). -/
def tableContents (s : State) : TableEntry → AnswerCode × List Byte
  | .product i =>
    match s.products[i] with
    | none => (.unknownProduct, [])
    | some p => (.ok, productBytes p ++ num 2 p.inUse)
  | .program i =>
    match s.programs[i] with
    | none => (.unknownProgram, [])
    | some p => (.ok, programBytes p.name ++ num 2 p.segments ++ num 2 (productsNaming s p.name))
  | .plan i =>
    match s.plans[i] with
    | none => (.ok, flag false)
    | some tiers => (.ok, flag true ++ listOf tierBytes tiers)
  | .group i =>
    match s.groups[i] with
    | none => (.ok, flag false)
    | some g => (.ok, flag true ++ groupBytes g)
  | .offset c ident =>
    match findProduct s ident with
    | none => (.unknownProduct, [])
    | some p =>
      (.ok, opt 2 (fun o : Offset => signed o.value) (s.offsets.find? (offsetKey c p)) ++ num 2 s.offsets.length)

/-- TABLE_READ once its authority is settled (R35). -/
def takeTableRead (f : Frame) (s : State) : State :=
  match readTableRead f.body with
  | none => reply .tableRead f .malformed [] s
  | some e => reply .tableRead f (tableContents s e).1 (tableContents s e).2 s

/-- TABLE_READ (R35). -/
def execTableRead (f : Frame) (s : State) : Host.Outcome State Fault Refusal :=
  .next (onPlainCommand .tableRead 3 f (fun _ => takeTableRead f) s)

end Sys2Proof.Machine
end

