-- ==== Sys2Proof/Machine/CorrelationUnit.lean ====
section
/-! DEFINITION. The Correlation Unit's commands: CORR_RESULT, CORR_END, CORRELATE_NOW, CELL_SET COVER_END and
the correlation deadline expiry (Chapter 7). -/

namespace Sys2Proof.Machine

open Sys2Proof

/-! ## Results (R130) -/

/-- A result recorded at the tail, its serial's earlier entry removed (R130). -/
def recordResult (g : GoldenResult) (results : List GoldenResult) : List GoldenResult :=
  results.filter (fun r => r.serial != g.serial) ++ [g]

/-- A serial is in the golden set of a cell's group (R130). -/
def goldenSerial (s : State) (c : CellId) (serial : Nat) : Bool :=
  (groupOf s c).golden.any fun u => u.serial == serial

/-- CORR_RESULT of a cell (R130). -/
def takeCorrResult (f : Frame) (c : CellId) (s : State) : State :=
  match readCorrResult f.body, (getCell s c).run with
  | none, _ => count .malformed s
  | some _, none => count .badState s
  | some g, some r =>
    if goldenSerial s c g.serial then
      modCell c (fun x => { x with run := some { r with results := recordResult g r.results } }) s
    else count .badState s

/-- CORR_RESULT (R130). -/
def execCorrResult (f : Frame) (s : State) : Host.Outcome State Fault Refusal :=
  .next (onEquipment .corrResult .tester 4 f (takeCorrResult f) s)

/-! ## The end of a run (R131 to R134) -/

/-- The code reported for a golden unit, if one was. -/
def reportedCode (r : RunRecord) (u : Golden) : Option Nat :=
  (r.results.find? fun g => g.serial == u.serial).map fun g => g.code

/-- The golden units a run mismatched, in the golden set's order (R132). -/
def mismatches (g : Group) (r : RunRecord) : List Golden :=
  g.golden.filter fun u => reportedCode r u != some u.bin.val

/-- A run passes (R132). -/
def runPasses (g : Group) (r : RunRecord) : Bool := decide ((mismatches g r).length ≤ g.allowed)

/-- A mismatched unit as CORR_OUTCOME carries it (R132). -/
def mismatchBytes (r : RunRecord) (u : Golden) : List Byte :=
  num 2 u.serial ++ index u.bin ++ opt 2 (num 2) (reportedCode r u)

/-- The CORR_OUTCOME notice (R132, DESIGN CHOICE log 25). The standby, which R132 gives only while one acts, stands as an
optional field of R182 (DESIGN CHOICE log 39). -/
def corrOutcomeNotice (c : CellId) (r : RunRecord) (how : RunEnd) (s : State) : State :=
  let g := groupOf s c
  notice .corrOutcome noLot
    (index c ++ index (getCell s c).group ++ name (runEndCode how) ++ name (if runPasses g r then 1 else 2)
      ++ num 2 g.golden.length ++ num 2 (g.golden.filter fun u => (reportedCode r u).isSome).length
      ++ num 2 (mismatches g r).length ++ num 2 g.allowed ++ listOf (mismatchBytes r) (mismatches g r)
      ++ opt 2 index (actingStandby s c)) s

/-- The yield state and qualification a pass gives (R133, steps 1 to 3). -/
def passedCell (shift : Nat) (x : Cell) : Cell :=
  { x with qual := .soaking, soak := 2 ^ shift, sinceCorr := 0, lastProduct := none }

/-- The cover of a passing cell ends when its standby is IDLE (R133 step 5, R135). -/
def endCoverAtPass (c : CellId) (s : State) : State :=
  match actingStandby s c with
  | some t => if (getCell s t).state = .idle then endCover t s else s
  | none => s

/-- A passing run (R133). -/
def passRun (c : CellId) (s : State) : State :=
  let s := modCell c (passedCell (shiftOf s c)) s
  endCoverAtPass c (enterCellState c .idle clearLatch s)

/-- A failing run (R134). -/
def failRun (c : CellId) (s : State) : State :=
  enterDown c .corrFailed (modCell c (fun x => { x with qual := .unqualified }) s)

/-- The end of a cell's run: notified, its record removed, its outcome acted on (R131, R132). -/
def endRun (c : CellId) (how : RunEnd) (s : State) : State :=
  match (getCell s c).run with
  | none => s
  | some r =>
    let passes := runPasses (groupOf s c) r
    let s := modCell c (fun x => { x with run := none }) (corrOutcomeNotice c r how s)
    if passes then passRun c s else failRun c s

/-- CORR_END of a cell (R131). -/
def takeCorrEnd (c : CellId) (s : State) : State :=
  if (getCell s c).run.isSome then endRun c .corrEnd s else count .badState s

/-- CORR_END (R131). -/
def execCorrEnd (f : Frame) (s : State) : Host.Outcome State Fault Refusal :=
  .next (onEquipment .corrEnd .tester 0 f takeCorrEnd s)

/-- CORRELATION_DEADLINE_EXPIRY; nothing before the deadline (R131, DESIGN CHOICE log 2). -/
def execCorrelationDeadlineExpiry (c : CellId) (s : State) : Host.Outcome State Fault Refusal :=
  .next (if reached s ((getCell s c).run.map fun r => r.deadline) then endRun c .timeout s else s)

/-! ## CORRELATE_NOW (R137) -/

/-- A taken CORRELATE_NOW by the cell's state, or the code that refuses it (R137, DEDUCED log 17). -/
def correlateNow (c : CellId) (s : State) : Except AnswerCode State :=
  match (getCell s c).state with
  | .idle => .ok (correlationStart c s)
  | .offline | .down =>
    match enableRefusal s c with
    | some code => .error code
    | none => .ok (correlationStart c s)
  | .loading | .running | .stalled | .stopping | .paused | .unloading => .ok (modCell c raiseDue s)
  | .correlating => .error .badState

/-- CORRELATE_NOW once its authority is settled (R137). -/
def takeCorrelateNow (f : Frame) (s : State) : State :=
  match readCell f.body with
  | none => reply .correlateNow f .malformed [] s
  | some c =>
    match correlateNow c s with
    | .error code => reply .correlateNow f code [] s
    | .ok s =>
      reply .correlateNow f .ok (name (cellStateCode (getCell s c).state) ++ name (qualCode (getCell s c).qual)) s

/-- CORRELATE_NOW (R137). -/
def execCorrelateNow (f : Frame) (s : State) : Host.Outcome State Fault Refusal :=
  .next (onPlainCommand .correlateNow 1 f (fun _ => takeCorrelateNow f) s)

/-! ## COVER_END (R136) -/

/-- CELL_SET COVER_END once its authority is settled (R40, R136). -/
def takeCoverEnd (f : Frame) (s : State) : State :=
  match readCell f.body with
  | none => reply .cellSet f .malformed [] s
  | some c =>
    if isStandby s c && (getCell s c).actingFor.isSome then replyState .cellSet f c (endCover c s)
    else reply .cellSet f .badState [] s

/-- CELL_SET COVER_END (R136). -/
def execCellSetCoverEnd (f : Frame) (s : State) : Host.Outcome State Fault Refusal :=
  .next (onCellSet .coverEnd f (takeCoverEnd f) s)

end Sys2Proof.Machine
end

