-- ==== Sys2Proof/Machine/DispatchArbiter.lean ====
section
/-! DEFINITION. The Dispatch Arbiter's commands: WORK_REQUEST, ASSIGN_NEXT, REQUEST_CLEAR, CELL_SET BLOCK_END
and the block wait expiry (Chapter 4). -/

namespace Sys2Proof.Machine

open Sys2Proof

/-- A cell's latch set now, and its choice made (R63, R64, R65). -/
def askForWork (c : CellId) (s : State) : State := chooseFor c (modCell c (setLatch s.mono) s)

/-- A WORK_REQUEST of a cell is taken (R64). -/
def workRequestTaken (s : State) (c : CellId) : Bool :=
  (getCell s c).state == .idle && mayTakeWork s c && (getCell s c).source != .floor

/-- WORK_REQUEST of a cell (R64). -/
def takeWorkRequest (c : CellId) (s : State) : State :=
  if workRequestTaken s c then askForWork c s else count .badState s

/-- WORK_REQUEST (R64). -/
def execWorkRequest (f : Frame) (s : State) : Host.Outcome State Fault Refusal :=
  .next (onEquipment .workRequest .handler 0 f takeWorkRequest s)

/-- An ASSIGN_NEXT of a cell is taken (R65). -/
def assignNextTaken (s : State) (c : CellId) : Bool :=
  (getCell s c).source != .handler && (getCell s c).state == .idle && mayTakeWork s c

/-- ASSIGN_NEXT once its authority is settled (R65). The lot, which the answer carries only when one was assigned, stands
as an optional field of R182 (DESIGN CHOICE log 39). -/
def takeAssignNext (f : Frame) (s : State) : State :=
  match readCell f.body with
  | none => reply .assignNext f .malformed [] s
  | some c =>
    if assignNextTaken s c then
      let s := askForWork c s
      reply .assignNext f .ok
        (name (cellStateCode (getCell s c).state) ++ opt 16 (fun q : SlotId × Lot => q.2.ident.toList) (cellLot s c)) s
    else reply .assignNext f .badState [] s

/-- ASSIGN_NEXT (R65). -/
def execAssignNext (f : Frame) (s : State) : Host.Outcome State Fault Refusal :=
  .next (onPlainCommand .assignNext 2 f (fun _ => takeAssignNext f) s)

/-- REQUEST_CLEAR once its authority is settled (R66). -/
def takeRequestClear (f : Frame) (s : State) : State :=
  match readCell f.body with
  | none => reply .requestClear f .malformed [] s
  | some c =>
    if (getCell s c).latch then reply .requestClear f .ok [] (modCell c clearLatch s)
    else reply .requestClear f .badState [] s

/-- REQUEST_CLEAR (R66). -/
def execRequestClear (f : Frame) (s : State) : Host.Outcome State Fault Refusal :=
  .next (onPlainCommand .requestClear 2 f (fun _ => takeRequestClear f) s)

/-- A cell's reservation cleared; a waiting cell chooses at once (R76). -/
def endReservation (c : CellId) (s : State) : State := chooseFor c (modCell c clearReservation s)

/-- CELL_SET BLOCK_END once its authority is settled (R40, R80). -/
def takeBlockEnd (f : Frame) (s : State) : State :=
  match readCell f.body with
  | none => reply .cellSet f .malformed [] s
  | some c =>
    if (getCell s c).reserved.isSome then replyState .cellSet f c (endReservation c s)
    else reply .cellSet f .badState [] s

/-- CELL_SET BLOCK_END (R80). -/
def execCellSetBlockEnd (f : Frame) (s : State) : Host.Outcome State Fault Refusal :=
  .next (onCellSet .blockEnd f (takeBlockEnd f) s)

/-- BLOCK_WAIT_EXPIRY; nothing before the deadline (R79, DESIGN CHOICE log 2). -/
def execBlockWaitExpiry (c : CellId) (s : State) : Host.Outcome State Fault Refusal :=
  .next (if reached s (getCell s c).blockDeadline then endReservation c s else s)

end Sys2Proof.Machine
end

