-- ==== Sys2Proof/Machine/HoldUnit.lean ====
section
/-! DEFINITION. The Hold Unit's commands: HOLD_PLACE, HOLD_RELEASE, HOLD_SWEEP and the sweep step (Chapter 8). -/

namespace Sys2Proof.Machine

open Sys2Proof

/-- A station hold's recorded level: the named level where it is the weaker, else the effective level (R143). -/
def recordedLevel (effective : Level) (named : Option Level) : Level :=
  match named with
  | some l => if effective < l then l else effective
  | none => effective

/-- The lot holds a station hold of the same reason and origin (R142). -/
def stationDuplicate (l : Lot) (reason : Nat) (origin : Addr) : Bool :=
  l.holds.any fun h => h.reason == reason && h.origin == .station origin

/-- The state of the lot in a slot, as an answer carries it. -/
def lotStateBytes (s : State) (i : SlotId) : List Byte :=
  match getLot s i with
  | some l => name (lotStateCode l.state)
  | none => name 0

/-- HOLD_PLACE once its authority is settled (R142, R143, R146). -/
def takeHoldPlace (effective : Level) (f : Frame) (s : State) : State :=
  match readHoldPlace f.body with
  | none => reply .holdPlace f .malformed [] s
  | some b =>
    match (findLot s f.hdr.lot).bind (queuedLot s) with
    | none => reply .holdPlace f .unknownLot [] s
    | some (i, l) =>
      if stationDuplicate l b.reason f.hdr.src then reply .holdPlace f .duplicate [] s
      else if 8 ≤ l.holds.length then reply .holdPlace f .full [] s
      else
        let level := recordedLevel effective b.level
        let id := nextFreeId s
        let s := recordHold i b.reason b.kind level (.station f.hdr.src) s
        reply .holdPlace f .ok (num 2 id ++ lotStateBytes s i ++ index level) s

/-- HOLD_PLACE (R142). -/
def execHoldPlace (f : Frame) (s : State) : Host.Outcome State Fault Refusal :=
  .next (onPlainCommand .holdPlace 3 f (fun effective => takeHoldPlace effective f) s)

/-- HOLD_RELEASE with hold id 0, once its lot is found (R151). -/
def releaseOverflow (effective : Level) (f : Frame) (i : SlotId) (l : Lot) (s : State) : State :=
  if !l.overflow then reply .holdRelease f .badState [] s
  else if effective ≠ 0 then reply .holdRelease f .authority [] s
  else reply .holdRelease f .ok [] (clearOverflow i f.hdr.src effective s)

/-- HOLD_RELEASE with a hold id 1..65535, once its lot is found (R150). -/
def releaseHold (effective : Level) (f : Frame) (id : Nat) (i : SlotId) (l : Lot) (s : State) : State :=
  match l.holds.find? fun h => h.id == id with
  | none => reply .holdRelease f .badState [] s
  | some h =>
    if h.level < effective then reply .holdRelease f .authority [] s
    else
      let s := removeHold i h f.hdr.src effective false s
      reply .holdRelease f .ok (num 2 (l.holds.length - 1) ++ lotStateBytes s i) s

/-- HOLD_RELEASE once its authority is settled (R150, R151). -/
def takeHoldRelease (effective : Level) (f : Frame) (s : State) : State :=
  match readHoldRelease f.body with
  | none => reply .holdRelease f .malformed [] s
  | some id =>
    match (findLot s f.hdr.lot).bind (queuedLot s) with
    | none => reply .holdRelease f .unknownLot [] s
    | some (i, l) => if id = 0 then releaseOverflow effective f i l s else releaseHold effective f id i l s

/-- HOLD_RELEASE (R150). -/
def execHoldRelease (f : Frame) (s : State) : Host.Outcome State Fault Refusal :=
  .next (onPlainCommand .holdRelease 3 f (fun effective => takeHoldRelease effective f) s)

/-- HOLD_RELEASE with hold id 0 (R151). -/
def execHoldReleaseOverflow (f : Frame) (s : State) : Host.Outcome State Fault Refusal :=
  .next (onPlainCommand .holdRelease 3 f (fun effective => takeHoldRelease effective f) s)

/-- The index of the product a sweep names; `none` where no defined product has the identifier (R154). -/
def sweptProduct (s : State) (ident : Option ProductIdent) : Option (Option ProductId) :=
  match ident with
  | none => some none
  | some v => (findProduct s v).map some

/-- The sweep state of a taken HOLD_SWEEP (R154). -/
def newSweep (effective : Level) (f : Frame) (b : SweepBody) (product : Option ProductId) : Sweep where
  asker := askerOf f
  captured := effective
  reason := b.reason
  product := product
  origin := b.origin
  next := b.start
  remaining := b.maxCount
  stopOnRefusal := b.stopOnRefusal
  removed := 0

/-- HOLD_SWEEP once its authority is settled; taken, it is answered at its end (R154, R156). -/
def takeHoldSweep (effective : Level) (f : Frame) (s : State) : State :=
  match readSweep f.body with
  | none => reply .holdSweep f .malformed [] s
  | some b =>
    match sweptProduct s b.product with
    | none => reply .holdSweep f .unknownProduct [] s
    | some product =>
      if s.sweep.isSome then reply .holdSweep f .busy [] s
      else { s with sweep := some (newSweep effective f b product) }

/-- HOLD_SWEEP (R154). -/
def execHoldSweep (f : Frame) (s : State) : Host.Outcome State Fault Refusal :=
  .next (onPlainCommand .holdSweep 3 f (fun effective => takeHoldSweep effective f) s)

/-- SWEEP_STEP; nothing while no sweep runs (R155). -/
def execSweepStep (s : State) : Host.Outcome State Fault Refusal :=
  .next (match s.sweep with
    | some w => stepSweep w s
    | none => s)

end Sys2Proof.Machine
end

