-- ==== Sys2Proof/Machine/LinkUnit.lean ====
section
/-! DEFINITION. The Link Unit's commands: frames at the ports, the station table, the link configuration, time,
counters, commissioning and the two resets (Chapter 10). -/

namespace Sys2Proof.Machine

open Sys2Proof

/-! ## Frames at the ports (R178, R179) -/

/-- A received frame is put behind the frames its port holds; one that finds 64 is lost (R178, DESIGN CHOICE log 3). -/
def receive (p : Port) (etherType : BitVec 16) (payload : List Byte) (s : State) : State :=
  let x := getPort s p
  if rxCapacity ≤ x.rx.length then s
  else setPort p { x with rx := x.rx ++ [ofWire (some s.link.own) s.link.frameType p etherType payload] } s

/-- FRAME_LOST: a frame arrives at a port (R178, DESIGN CHOICE log 3). -/
def execFrameLost (p : Port) (etherType : BitVec 16) (payload : List Byte) (s : State) :
    Host.Outcome State Fault Refusal :=
  .next (receive p etherType payload s)

/-- NON_DIALOGUE_FRAME: forwarded unchanged (R178). -/
def execNonDialogueFrame (p : Port) (etherType : BitVec 16) (payload : List Byte) (s : State) :
    Host.Outcome State Fault Refusal :=
  .next (handTo (otherPort p) ⟨etherType, payload⟩ s)

/-- UNRECOGNISED_KIND (R179 to R181, R185). -/
def execUnrecognisedKind (kind : Byte) (f : Frame) (s : State) : Host.Outcome State Fault Refusal :=
  .next (onUnrecognised kind f s)

/-- MALFORMED_FRAME: a payload that fails checks 1 to 4 of R179 is counted and discarded. -/
def execMalformedFrame (_port : Port) (payload : List Byte) (s : State) : Host.Outcome State Fault Refusal :=
  .next (if payloadBad payload then count .malformed s else s)

/-- A port sends the frame that has waited longest (R178, DESIGN CHOICE log 5). -/
def transmit (p : Port) (s : State) : State :=
  let x := getPort s p
  match x.tx with
  | [] => s
  | fr :: rest => setPort p { x with tx := rest, wire := some fr } s

/-- FRAME_TRANSMIT (R178). -/
def execFrameTransmit (p : Port) (s : State) : Host.Outcome State Fault Refusal := .next (transmit p s)

/-! ## The station table (R183, R184, R189) -/

/-- An entry of role FLOOR at level 0 (R183, R184, R193). -/
def isFloorAuthority : Option Station → Bool
  | some st => st.role == .floor && st.level == 0
  | none => false

/-- The table holds an entry of role FLOOR at level 0. -/
def hasFloorAuthority (stations : Vector (Option Station) 64) : Bool := stations.toList.any isFloorAuthority

/-- An address is a configured station of a cell not OFFLINE (R183, R184). -/
def stationWorks (s : State) (a : Addr) : Bool :=
  allCells.any fun c =>
    (getCell s c).state != .offline && ((getCell s c).tester == some a || (getCell s c).handler == some a)

/-- An entry's address is that of a working cell's equipment. -/
def entryWorks (s : State) (e : Option Station) : Bool :=
  match e with
  | some st => stationWorks s st.address
  | none => false

/-- Another entry, at a different index, holds an address (R183). -/
def addressTaken (s : State) (i : StationIx) (a : Addr) : Bool :=
  (List.finRange 64).any fun j =>
    j != i && match s.stations[j] with
      | some st => st.address == a
      | none => false

/-- STATION_WRITE once its authority is settled (R183). The own address its first check compares with is the one in
force when the command is taken (DESIGN CHOICE log 35). -/
def takeStationWrite (f : Frame) (s : State) : State :=
  match readStationWrite f.body with
  | none => reply .stationWrite f .malformed [] s
  | some (i, st) =>
    let stations := s.stations.set i (some st)
    if st.address = s.link.own then reply .stationWrite f .malformed [] s
    else if addressTaken s i st.address then reply .stationWrite f .duplicate [] s
    else if entryWorks s s.stations[i] && s.stations[i] != some st then reply .stationWrite f .inUse [] s
    else if s.mode = .operating && !hasFloorAuthority stations then reply .stationWrite f .badState [] s
    else reply .stationWrite f .ok (stationBytes st) { s with stations := stations }

/-- STATION_WRITE (R183). -/
def execStationWrite (f : Frame) (s : State) : Host.Outcome State Fault Refusal :=
  .next (onPlainCommand .stationWrite 0 f (fun _ => takeStationWrite f) s)

/-- STATION_DELETE once its authority is settled (R184). -/
def takeStationDelete (f : Frame) (s : State) : State :=
  match readStationIx f.body with
  | none => reply .stationDelete f .malformed [] s
  | some i =>
    let stations := s.stations.set i none
    if s.stations[i].isNone then reply .stationDelete f .badState [] s
    else if entryWorks s s.stations[i] then reply .stationDelete f .inUse [] s
    else if s.mode = .operating && isFloorAuthority s.stations[i] && !hasFloorAuthority stations then
      reply .stationDelete f .badState [] s
    else reply .stationDelete f .ok [] { s with stations := stations }

/-- STATION_DELETE (R184). -/
def execStationDelete (f : Frame) (s : State) : Host.Outcome State Fault Refusal :=
  .next (onPlainCommand .stationDelete 0 f (fun _ => takeStationDelete f) s)

/-- STATION_READ once its authority is settled (R189). The entry stands as an optional field of R182, absent where it is
empty (DESIGN CHOICE log 39). -/
def takeStationRead (f : Frame) (s : State) : State :=
  match readStationIx f.body with
  | none => reply .stationRead f .malformed [] s
  | some i => reply .stationRead f .ok (opt 9 stationBytes s.stations[i]) s

/-- STATION_READ (R189). -/
def execStationRead (f : Frame) (s : State) : Host.Outcome State Fault Refusal :=
  .next (onPlainCommand .stationRead 3 f (fun _ => takeStationRead f) s)

/-! ## The link configuration (R189) -/

/-- The record as stored: the aging interval clamped (R189). -/
def storedLink (l : LinkConfig) : LinkConfig :=
  { l with aging := if l.aging = 0 then 0 else clamp 60000 86400000 l.aging }

/-- LINK_WRITE once its authority is settled; its answer goes out under the old record (R189). -/
def takeLinkWrite (f : Frame) (s : State) : State :=
  match readLinkWrite f.body with
  | none => reply .linkWrite f .malformed [] s
  | some l =>
    if (stationAt s l.own).isSome then reply .linkWrite f .duplicate [] s
    else
      let s := reply .linkWrite f .ok (linkBytes (storedLink l)) s
      { s with link := storedLink l }

/-- LINK_WRITE (R189). -/
def execLinkWrite (f : Frame) (s : State) : Host.Outcome State Fault Refusal :=
  .next (onPlainCommand .linkWrite 0 f (fun _ => takeLinkWrite f) s)

/-- LINK_READ once its authority is settled (R189). -/
def takeLinkRead (f : Frame) (s : State) : State :=
  if !f.body.isEmpty then reply .linkRead f .malformed [] s
  else
    reply .linkRead f .ok
      (linkBytes s.link ++ name (operatingModeCode s.mode) ++ num 6 s.mono ++ num 4 (floorTime s)) s

/-- LINK_READ (R189). -/
def execLinkRead (f : Frame) (s : State) : Host.Outcome State Fault Refusal :=
  .next (onPlainCommand .linkRead 3 f (fun _ => takeLinkRead f) s)

/-! ## Time and counters (R188, R191) -/

/-- The offset that makes floor time a value now (R191). -/
def offsetFor (mono time : Nat) : Nat := (time + (2 ^ 32 - mono % 2 ^ 32)) % 2 ^ 32

/-- TIME_SET once its authority is settled (R191). -/
def takeTimeSet (f : Frame) (s : State) : State :=
  match readTimeSet f.body with
  | none => reply .timeSet f .malformed [] s
  | some t =>
    let after := { s with offset := offsetFor s.mono t }
    reply .timeSet f .ok (num 4 (floorTime s) ++ num 4 (floorTime after)) after

/-- TIME_SET (R191). -/
def execTimeSet (f : Frame) (s : State) : Host.Outcome State Fault Refusal :=
  .next (onPlainCommand .timeSet 0 f (fun _ => takeTimeSet f) s)

/-- The six counters in the order of Table 10-7. -/
def counterBytes (x : Counters) : List Byte :=
  num 4 x.unknownStation ++ num 4 x.badState ++ num 4 x.late ++ num 4 x.duplicateTd ++ num 4 x.siteInactive
    ++ num 4 x.malformed

/-- A COUNTERS_READ body asks for the counters to be cleared. -/
def clears (f : Frame) : Bool := readCountersRead f.body == some true

/-- The required level of a COUNTERS_READ (Table 10-5); a body that is not one readable clear byte is judged as one
without the clear indication, at any level, before it is answered MALFORMED (R185, DESIGN CHOICE log 37). -/
def countersLevel (f : Frame) : Level := if clears f then 1 else 3

/-- COUNTERS_READ once its authority is settled (R188). -/
def takeCountersRead (f : Frame) (s : State) : State :=
  match readCountersRead f.body with
  | none => reply .countersRead f .malformed [] s
  | some clear =>
    let values := counterBytes s.counters
    reply .countersRead f .ok values (if clear then { s with counters := ⟨0, 0, 0, 0, 0, 0⟩ } else s)

/-- COUNTERS_READ (R188). -/
def execCountersRead (f : Frame) (s : State) : Host.Outcome State Fault Refusal :=
  .next (onPlainCommand .countersRead (countersLevel f) f (fun _ => takeCountersRead f) s)

/-- COUNTERS_READ with the clear indication (R188). -/
def execCountersReadClear (f : Frame) (s : State) : Host.Outcome State Fault Refusal :=
  .next (onPlainCommand .countersRead (countersLevel f) f (fun _ => takeCountersRead f) s)

/-! ## Commissioning (R193) -/

/-- The checks of COMMISSION_END (R193). -/
def mayEndCommissioning (s : State) : Bool :=
  s.mode == .commissioning && hasFloorAuthority s.stations && s.link.notice.isSome

/-- COMMISSION_END once its authority is settled (R193). -/
def takeCommissionEnd (f : Frame) (s : State) : State :=
  if !f.body.isEmpty then reply .commissionEnd f .malformed [] s
  else if mayEndCommissioning s then reply .commissionEnd f .ok [] { s with mode := .operating }
  else reply .commissionEnd f .badState [] s

/-- COMMISSION_END (R193). -/
def execCommissionEnd (f : Frame) (s : State) : Host.Outcome State Fault Refusal :=
  .next (onPlainCommand .commissionEnd 0 f (fun _ => takeCommissionEnd f) s)

/-! ## Resets (R194, R195) -/

/-- A port after cold reset; the model's count of handed frames goes on (R194, DESIGN CHOICE log 8). -/
def coldPort (x : PortState) : PortState := { PortState.cold with handed := x.handed }

/-- COLD_RESET with what the strap reads; commands still to arrive stay in the queue (R194, DESIGN CHOICE log 4). -/
def execColdReset (strap : Addr) (s : State) : Host.Outcome State Fault Refusal :=
  .next { State.cold strap with
    cellPort := coldPort s.cellPort
    floorPort := coldPort s.floorPort
    pending := s.pending }

/-- The block wait deadline set afresh on an IDLE cell that holds a reservation (R83). -/
def renewBlockWait (c : CellId) (s : State) : State :=
  let deadline := blockWaitFrom s c
  modCell c (fun x => if x.reserved.isSome then { x with blockDeadline := deadline } else x) s

/-- The lot of a load that warm reset ends goes back to the queue (R98). -/
def returnLoadedLot (c : CellId) (s : State) : State :=
  match cellLot s c with
  | some (i, _) => joinQueue i (some c) (part i c s)
  | none => s

/-- A load ended by warm reset: no outcome, the lot back in the queue, the cell IDLE; a cell that owes a
correlation starts it without cover (R98, R127, R129). -/
def warmLoad (c : CellId) (s : State) : State :=
  let s := modCell c (fun x => { x with load := none, loaded := none }) s
  let s := enterCellState c .idle clearLatch (returnLoadedLot c s)
  if owesCorrelation (getCell s c) then beginCorrelation c s else renewBlockWait c s

/-- A run restarted by warm reset (R139). -/
def warmRun (c : CellId) (s : State) : State :=
  sendCorrelate c (modCell c (fun x => { x with run := some (freshRun s c) }) s)

/-- What warm reset does to a cell, by the state it finds it in (R62, R83, R98, R139). -/
def warmCell (c : CellId) (s : State) : State :=
  match (getCell s c).state with
  | .running | .stalled | .stopping => pauseCell c s
  | .unloading =>
    let deadline := s.mono + (groupOf s c).unloadTimeout
    modCell c (fun x => { x with unloadDeadline := some deadline }) s
  | .loading => warmLoad c s
  | .correlating => warmRun c s
  | .idle => renewBlockWait c s
  | .offline | .paused | .down => s

/-- Warm reset: the sweep is ended, every latch cleared, then the cells ascending (R62, R83, R159, R195;
DESIGN CHOICE log 16). -/
def warmReset (s : State) : State :=
  eachCell warmCell (eachCell (fun c => modCell c clearLatch) { s with sweep := none })

/-- WARM_RESET once its authority is settled (R195). -/
def takeWarmReset (f : Frame) (s : State) : State :=
  if !f.body.isEmpty then reply .warmReset f .malformed [] s
  else reply .warmReset f .ok [] (warmReset s)

/-- WARM_RESET (R195). -/
def execWarmReset (f : Frame) (s : State) : Host.Outcome State Fault Refusal :=
  .next (onPlainCommand .warmReset 0 f (fun _ => takeWarmReset f) s)

end Sys2Proof.Machine
end

