-- ==== Sys2Proof/Machine/LoadOps.lean ====
section
/-! DEFINITION. The Load Monitor's operations: the end of a load attempt and what it causes (R91 to R94). -/

namespace Sys2Proof.Machine

open Sys2Proof

/-- The program of a record is still in the library and its attempts are not used up (R93). -/
def mayRetry (s : State) (c : CellId) (r : LoadRecord) : Bool :=
  decide (r.attempts ≤ (groupOf s c).loadRetries) && (findProgram s r.program).isSome

/-- The consequence of an attempt's end (R91). -/
def consequence (s : State) (c : CellId) (r : LoadRecord) (outcome : LoadOutcome) : LoadConsequence :=
  if outcome = .done then if r.lot.isSome then .start else .idle
  else if mayRetry s c r then .retry
  else .down

/-- The identifier of a load record's lot. -/
def recordLot (s : State) (r : LoadRecord) : Option LotIdent :=
  match r.lot with
  | some i => (getLot s i).map fun l : Lot => l.ident
  | none => none

/-- The LOAD_OUTCOME notice (R91). Its header names the load record's lot, and none where the record has none (R187,
DESIGN CHOICE log 38). -/
def loadOutcomeNotice (c : CellId) (r : LoadRecord) (outcome : LoadOutcome) (s : State) : State :=
  notice .loadOutcome ((recordLot s r).getD noLot)
    (index c ++ word16 ((getCell s c).tester.getD 0) ++ programBytes r.program ++ num 2 r.attempts
      ++ name (loadOutcomeCode outcome) ++ num 2 r.expected ++ num 2 r.seen ++ num 2 (r.expected - r.seen)
      ++ opt 16 (fun v : LotIdent => v.toList) (recordLot s r) ++ name (consequenceCode (consequence s c r outcome))) s

/-- A DONE load whose lot was pulled: the cell is IDLE, a cover that its entry into IDLE ends is ended, and
its latch is set unless it is a standby without cover (R92, R135). -/
def doneWithoutLot (c : CellId) (s : State) : State :=
  let s := endReturnedCover c (enterCellState c .idle id s)
  settleIdle c (if mayTakeWork s c then modCell c (setLatch s.mono) s else s)

/-- A failed load with no retry: the cell is DOWN, and its lot goes back to the queue (R94). -/
def loadFailed (c : CellId) (r : LoadRecord) (s : State) : State :=
  let s := enterDown c .loadFailed (modCell c (fun x => { x with load := none }) s)
  match r.lot with
  | some i => joinQueue i (some c) (part i c s)
  | none => s

/-- An attempt ends with an outcome: notified, then its consequence (R91 to R94). -/
def endAttempt (c : CellId) (outcome : LoadOutcome) (s : State) : State :=
  match (getCell s c).load with
  | none => s
  | some r =>
    let noted := loadOutcomeNotice c r outcome s
    match consequence s c r outcome with
    | .start | .idle =>
      let s := modCell c (fun x => { x with loaded := some r.program, load := none }) noted
      match r.lot with
      | some i => startLot i c s
      | none => doneWithoutLot c s
    | .retry => beginAttempt c (modCell c (fun x => { x with load := some { r with attempts := r.attempts + 1 } }) noted)
    | .down => loadFailed c r noted

/-- The outcome of a PROGRAM_READY (R88). -/
def readyOutcome (r : LoadRecord) (reported : ProgramName) : LoadOutcome :=
  if reported ≠ r.program then .mismatch
  else if r.expected ≤ r.seen then .done
  else .short

end Sys2Proof.Machine
end

