-- ==== Sys2Proof/Machine/LoadMonitor.lean ====
section
/-! DEFINITION. The Load Monitor's commands: LOAD_SEGMENT, PROGRAM_READY, LOAD_ABORT and the load deadline
expiry (Chapter 5). -/

namespace Sys2Proof.Machine

open Sys2Proof

/-- LOAD_SEGMENT for a cell's tester: counted in its load record, at most to 65535 (R84, R87, R96). -/
def takeLoadSegment (c : CellId) (s : State) : State :=
  match (getCell s c).load with
  | none => count .badState s
  | some r => modCell c (fun x => { x with load := some { r with seen := min (r.seen + 1) 65535 } }) s

/-- LOAD_SEGMENT, of any body length (R87). -/
def execLoadSegment (f : Frame) (s : State) : Host.Outcome State Fault Refusal :=
  .next (onFloorLoad .loadSegment none f takeLoadSegment s)

/-- PROGRAM_READY of a cell (R88, R96). -/
def takeProgramReady (f : Frame) (c : CellId) (s : State) : State :=
  match (getCell s c).load, readProgramReady f.body with
  | some r, some reported => endAttempt c (readyOutcome r reported) s
  | none, _ => count .badState s
  | some _, none => count .malformed s

/-- PROGRAM_READY (R88). -/
def execProgramReady (f : Frame) (s : State) : Host.Outcome State Fault Refusal :=
  .next (onEquipment .programReady .tester 10 f (takeProgramReady f) s)

/-- LOAD_ABORT for a cell (R89, R96). -/
def takeLoadAbort (c : CellId) (s : State) : State :=
  match (getCell s c).load with
  | none => count .badState s
  | some _ => endAttempt c .aborted s

/-- LOAD_ABORT, from the tester on the cell port or the file server on the floor port (R89). -/
def execLoadAbort (f : Frame) (s : State) : Host.Outcome State Fault Refusal :=
  .next (match f.port with
    | .cell => onEquipment .loadAbort .tester 0 f takeLoadAbort s
    | .floor => onFloorLoad .loadAbort (some 0) f takeLoadAbort s)

/-- LOAD_DEADLINE_EXPIRY; nothing before the deadline (R90, DESIGN CHOICE log 2). -/
def execLoadDeadlineExpiry (c : CellId) (s : State) : Host.Outcome State Fault Refusal :=
  .next (if reached s ((getCell s c).load.map fun r => r.deadline) then endAttempt c .timeout s else s)

end Sys2Proof.Machine
end

