-- ==== Sys2Proof/Machine/LotTable.lean ====
section
/-! DEFINITION. The Lot Table's commands: LOT_ENTER, LOT_PRIORITY, LOT_WITHDRAW, LOT_QUERY, QUEUE_READ and
the aging expiry (Chapter 1). -/

namespace Sys2Proof.Machine

open Sys2Proof

/-! ## LOT_ENTER (R9, R10) -/

/-- The record of a lot at entry (R10). -/
def newLot (s : State) (ident : LotIdent) (product : ProductId) (qty : Nat) (cls : Fin 4) : Lot where
  ident := ident
  product := product
  startQty := qty
  priority := cls
  entrySeq := s.nextSeq
  entryTime := floorTime s
  queueTime := floorTime s
  lastPromotion := floorTime s
  agingStart := s.mono
  state := .queued
  cell := none
  lastCell := none
  pass := 0
  bins := Vector.replicate 16 0
  pool := 0
  tested := 0
  lastTd := 0
  holds := []
  overflow := false
  recon := none
  qa := none
  releaseTime := none

/-- The entry-sequence counter after giving its value; at its last value the exhausted flag is set instead
(R2). -/
def advanceSeq (s : State) : State :=
  if s.nextSeq = 4294967295 then { s with seqExhausted := true } else { s with nextSeq := s.nextSeq + 1 }

/-- A new record in a slot, counted in its product's in-use count (R10, R24). -/
def createLot (i : SlotId) (l : Lot) (s : State) : State :=
  modProduct l.product (fun p => { p with inUse := p.inUse + 1 }) (setLot i (some l) (advanceSeq s))

/-- The entry of a lot that passed the checks of R9, up to its answer (R10). -/
def enterLot (i : SlotId) (l : Lot) (s : State) : State :=
  offer i (lotStateNotice i l.ident none (some .queued) none none (placeInQueue i (createLot i l s)))

/-- LOT_ENTER once its authority is settled (R9, R10). -/
def takeLotEnter (f : Frame) (s : State) : State :=
  match readLotEnter f.body with
  | none => reply .lotEnter f .malformed [] s
  | some b =>
    if !identPrintable f.hdr.lot || b.qty == 0 then reply .lotEnter f .malformed [] s
    else match findProduct s b.product with
      | none => reply .lotEnter f .unknownProduct [] s
      | some p =>
        if (findLot s f.hdr.lot).isSome then reply .lotEnter f .duplicate [] s
        else match freeSlot s with
          | none => reply .lotEnter f .full [] s
          | some i =>
            if s.seqExhausted then reply .lotEnter f .full [] s
            else
              reply .lotEnter f .ok (index i ++ num 4 s.nextSeq)
                (enterLot i (newLot s f.hdr.lot p b.qty (clampClass b.byte)) s)

/-- LOT_ENTER (R9, R10). -/
def execLotEnter (f : Frame) (s : State) : Host.Outcome State Fault Refusal :=
  .next (onPlainCommand .lotEnter 2 f (fun _ => takeLotEnter f) s)

/-! ## Class changes (R12, R13) -/

/-- A lot's class set, with its stamps (R12, R13). -/
def stampClass (i : SlotId) (cls : Fin 4) (s : State) : State :=
  modLot i (fun l => { l with priority := cls, lastPromotion := floorTime s, agingStart := s.mono }) s

/-- A lot's class set; a QUEUED lot takes its new place and is offered (R12, R13). -/
def setClass (i : SlotId) (cls : Fin 4) (s : State) : State :=
  let s := stampClass i cls s
  match getLot s i with
  | none => s
  | some l => if l.state = .queued then offer i (placeInQueue i s) else s

/-- LOT_PRIORITY once its authority is settled (R13). -/
def takeLotPriority (f : Frame) (s : State) : State :=
  match readLotPriority f.body with
  | none => reply .lotPriority f .malformed [] s
  | some byte =>
    match findLot s f.hdr.lot with
    | none => reply .lotPriority f .unknownLot [] s
    | some i => reply .lotPriority f .ok (index (clampClass byte)) (setClass i (clampClass byte) s)

/-- LOT_PRIORITY (R13). -/
def execLotPriority (f : Frame) (s : State) : Host.Outcome State Fault Refusal :=
  .next (onPlainCommand .lotPriority 2 f (fun _ => takeLotPriority f) s)

/-- A lot's aging deadline is present and reached (R11). -/
def agingDue (s : State) (i : SlotId) : Bool :=
  match getLot s i with
  | none => false
  | some l =>
    l.state == .queued && decide (l.priority < 3) && s.link.aging != 0 && decide (l.agingStart + s.link.aging ≤ s.mono)

/-- The class above, 3 at most. -/
def raiseClass (cls : Fin 4) : Fin 4 := clampClass (cls.val + 1)

/-- The promotion of a lot (R12). -/
def promote (i : SlotId) (s : State) : State :=
  match getLot s i with
  | none => s
  | some l => setClass i (raiseClass l.priority) s

/-- AGING_EXPIRY of the lot in a slot; nothing before its deadline (R12, DESIGN CHOICE log 2). -/
def execAgingExpiry (i : SlotId) (s : State) : Host.Outcome State Fault Refusal :=
  .next (if agingDue s i then promote i s else s)

/-! ## LOT_WITHDRAW (R14, R153) -/

/-- A lot is on a cell (R4, R14). -/
def onCell (l : Lot) : Bool :=
  match l.state with
  | .assigned | .testing | .stopping | .paused | .unloading => true
  | .queued | .held | .tested | .released | .empty => false

/-- The withdrawal interlock passes at an effective level (R153). -/
def interlockPasses (effective : Level) (l : Lot) : Bool :=
  l.holds.all (fun h => decide (effective ≤ h.level)) && (!l.overflow || effective == 0)

/-- LOT_WITHDRAW once its authority is settled (R14; its answer after the notice, DEDUCED log 32). -/
def takeLotWithdraw (effective : Level) (f : Frame) (s : State) : State :=
  if !f.body.isEmpty then reply .lotWithdraw f .malformed [] s
  else match findLot s f.hdr.lot with
    | none => reply .lotWithdraw f .unknownLot [] s
    | some i =>
      match getLot s i with
      | none => reply .lotWithdraw f .unknownLot [] s
      | some l =>
        if onCell l then reply .lotWithdraw f .badState [] s
        else if !interlockPasses effective l then reply .lotWithdraw f .authority [] s
        else reply .lotWithdraw f .ok [] (freeLot i (lotStateNotice i l.ident (some l.state) none none none s))

/-- LOT_WITHDRAW (R14). -/
def execLotWithdraw (f : Frame) (s : State) : Host.Outcome State Fault Refusal :=
  .next (onPlainCommand .lotWithdraw 1 f (fun effective => takeLotWithdraw effective f) s)

/-! ## Queries (R16, R17) -/

/-- A reconciliation as LOT_QUERY carries it. -/
def reconBytes (r : Reconciliation) : List Byte := name (reconciledCode r.value) ++ num 2 r.goodOut ++ num 2 r.rejectOut

/-- A QA record as LOT_QUERY carries it. -/
def qaBytes (q : QaRecord) : List Byte := num 2 q.sample ++ num 2 q.rejects ++ name (verdictCode q.verdict)

/-- A lot record as LOT_QUERY carries it: the order of Table 1-1 without the aging start, then the queue
position (R16, DESIGN CHOICE log 25). -/
def lotBytes (s : State) (i : SlotId) (l : Lot) : List Byte :=
  l.ident.toList ++ index l.product ++ num 2 l.startQty ++ index l.priority ++ num 4 l.entrySeq ++ num 4 l.entryTime
    ++ num 4 l.queueTime ++ num 4 l.lastPromotion ++ name (lotStateCode l.state) ++ opt 2 index l.cell
    ++ opt 2 index l.lastCell ++ num 2 l.pass ++ l.bins.toList.flatMap (num 2) ++ num 2 l.pool ++ num 2 l.tested
    ++ num 4 l.lastTd ++ listOf holdBytes l.holds ++ flag l.overflow ++ opt 5 reconBytes l.recon
    ++ opt 5 qaBytes l.qa ++ opt 4 (num 4) l.releaseTime ++ opt 2 (num 2) (s.queue.idxOf? i)

/-- The slot a LOT_QUERY names: by identifier, or by the body's index when the header names no lot; `none`
beyond slot 255 (R16). -/
def queriedSlot (f : Frame) (slot : Nat) (s : State) : Option (Option SlotId) :=
  if f.hdr.lot = noLot then if h : slot < 256 then some (some ⟨slot, h⟩) else none
  else some (findLot s f.hdr.lot)

/-- LOT_QUERY once its authority is settled (R16, DESIGN CHOICE log 22). -/
def takeLotQuery (f : Frame) (s : State) : State :=
  match (readLotQuery f.body).bind fun slot => queriedSlot f slot s with
  | none => reply .lotQuery f .malformed [] s
  | some none => reply .lotQuery f .unknownLot [] s
  | some (some i) =>
    match getLot s i with
    | none => reply .lotQuery f .unknownLot [] s
    | some l => reply .lotQuery f .ok (lotBytes s i l) s

/-- LOT_QUERY (R16). -/
def execLotQuery (f : Frame) (s : State) : Host.Outcome State Fault Refusal :=
  .next (onPlainCommand .lotQuery 3 f (fun _ => takeLotQuery f) s)

/-- A queue entry as QUEUE_READ carries it (R17). -/
def queueEntryBytes (q : SlotId × Lot) : List Byte :=
  q.2.ident.toList ++ index q.1 ++ index q.2.priority ++ num 4 q.2.entrySeq

/-- QUEUE_READ once its authority is settled (R17). -/
def takeQueueRead (f : Frame) (s : State) : State :=
  match readQueueRead f.body with
  | none => reply .queueRead f .malformed [] s
  | some (start, n) =>
    reply .queueRead f .ok
      (num 2 s.queue.length ++ num 2 (lotsInUse s)
        ++ listOf queueEntryBytes (((s.queue.drop start).take n).filterMap (queuedLot s))) s

/-- QUEUE_READ (R17). -/
def execQueueRead (f : Frame) (s : State) : Host.Outcome State Fault Refusal :=
  .next (onPlainCommand .queueRead 3 f (fun _ => takeQueueRead f) s)

end Sys2Proof.Machine
end

