-- ==== Sys2Proof/Machine/YieldOps.lean ====
section
/-! DEFINITION. The Yield Screen's operations: the stages of a taken touchdown (R103 to R119). -/

namespace Sys2Proof.Machine

open Sys2Proof

/-! ## Stages 1 to 3: filtering, normalisation, counting -/

/-- The bin a code stands for: above 15 it is bin 0 (R104). -/
def binOfCode (code : Byte) : Bin := if h : code.toNat < 16 then ⟨code.toNat, h⟩ else 0

/-- The sites of a touchdown that are not in the active mask (R103). -/
def inactiveSites (active sites : SiteSet) : Nat := size (sites &&& ~~~active)

/-- The reported sites, ascending, each with its bin (R103, R104). -/
def reportedSites (active : SiteSet) (b : TdBody) : List (Site × Bin) :=
  (allSites.filter fun k => inSet b.sites k && inSet active k).map fun k => (k, binOfCode b.codes[k])

/-- Counting as it goes: the lot, the counted sites so far, and whether a result was discarded. -/
structure Counting where
  lot     : Lot
  counted : List (Site × Bin)
  excess  : Bool
deriving DecidableEq, Repr

/-- One more unit in a bin. -/
def addBin (b : Bin) (bins : Vector Nat 16) : Vector Nat 16 := bins.set b (bins[b] + 1)

/-- One reported site of a pass-0 touchdown (R105). -/
def countFirst (a : Counting) (q : Site × Bin) : Counting :=
  if a.lot.tested < a.lot.startQty then
    { a with
      lot := { a.lot with tested := a.lot.tested + 1, bins := addBin q.2 a.lot.bins }
      counted := a.counted ++ [q] }
  else { a with excess := true }

/-- One reported site of a retest touchdown (R106). -/
def countRetest (a : Counting) (q : Site × Bin) : Counting :=
  if 0 < a.lot.pool then
    { a with
      lot := { a.lot with pool := a.lot.pool - 1, bins := addBin q.2 a.lot.bins }
      counted := a.counted ++ [q] }
  else { a with excess := true }

/-- Counting of a touchdown in the lot's pass (R105, R106). -/
def countSites (l : Lot) (reported : List (Site × Bin)) : Counting :=
  reported.foldl (if l.pass = 0 then countFirst else countRetest) ⟨l, [], false⟩

/-! ## Stage 4: site fail runs -/

/-- The SITE_DISABLED notice (R110). Its header names the lot whose touchdown took the site out of use (R187, DESIGN
CHOICE log 38). -/
def siteDisabledNotice (c : CellId) (k : Site) (limit : Nat) (lot : LotIdent) (number : Nat) (s : State) : State :=
  notice .siteDisabled lot
    (index c ++ index k ++ num 2 limit ++ lot.toList ++ num 4 number ++ word16 (getCell s c).active
      ++ num 2 (size (getCell s c).active)) s

/-- The fail run of one counted site, and the removal of a site whose run reaches the limit (R109, R110). -/
def failRunSite (c : CellId) (p : Product) (lot : LotIdent) (number : Nat) (s : State) (q : Site × Bin) : State :=
  let x := getCell s c
  if inSet p.passBins q.2 then modCell c (fun x => { x with failRuns := x.failRuns.set q.1 0 }) s
  else if p.failRunLimit ≤ x.failRuns[q.1] + 1 then
    siteDisabledNotice c q.1 p.failRunLimit lot number
      (modCell c (fun x => { x with failRuns := x.failRuns.set q.1 0, active := without x.active q.1 }) s)
  else modCell c (fun x => { x with failRuns := x.failRuns.set q.1 (x.failRuns[q.1] + 1) }) s

/-- Stage 4 (R109, R110). -/
def failRunStage (c : CellId) (p : Product) (lot : LotIdent) (number : Nat) (counted : List (Site × Bin))
    (s : State) : State :=
  if p.failRunLimit = 0 then s
  else
    let s := counted.foldl (failRunSite c p lot number) s
    if size (getCell s c).active < p.minActive then raiseSuspect c s else s

/-! ## Stages 5 to 8: the cell's yield -/

/-- The touchdown yield of g good among n counted sites (R111). -/
def touchdownYield (g n : Nat) : Nat := g * 10000 / n

/-- The new yield average: the old one plus the difference divided by 2^shift, rounded toward negative
infinity (R112). -/
def newAverage (average y shift : Nat) : Nat :=
  ((average : Int) + (256 * (y : Int) - average) / (2 ^ shift : Nat)).toNat

/-- The correlation count of one touchdown, and the raise to DUE when it reaches the interval (R116). -/
def correlationCount (interval : Nat) (x : Cell) : Cell :=
  let x := { x with sinceCorr := min (x.sinceCorr + 1) 65535 }
  if interval ≠ 0 ∧ interval ≤ x.sinceCorr then raiseDue x else x

/-- The soak of one touchdown (R115). -/
def soakStep (x : Cell) : Cell :=
  if x.soak = 0 then x
  else { x with soak := x.soak - 1, qual := if x.soak = 1 ∧ x.qual = .soaking then .qualified else x.qual }

/-- The drift check runs at a cell's qualification (R117). -/
def driftChecked (x : Cell) : Bool := x.qual == .qualified || x.qual == .due

/-- The estimate of a cell on a product (R117). -/
def estimate (s : State) (c : CellId) (p : ProductId) : Int :=
  (((getCell s c).average / 256 : Nat) : Int) + offsetOf s c p

/-- Stages 6 and 7 on the cell's yield state (R112, R115, R116). -/
def yieldStage (y shift interval : Nat) (x : Cell) : Cell :=
  soakStep (correlationCount interval { x with average := newAverage x.average y shift })

/-- Stage 8 (R117); `soaking` says that the touchdown is a soaking one. -/
def driftStage (c : CellId) (product : ProductId) (driftFloor : Nat) (soaking : Bool) (s : State) : State :=
  if !soaking && driftChecked (getCell s c) && decide (estimate s c product < driftFloor) then raiseSuspect c s else s

/-! ## Stage 9: lot screening -/

/-- The lot's pass fraction is below the yield floor (R119). -/
def lowYield (p : Product) (l : Lot) : Bool := decide (goodCount p l * 10000 < p.yieldFloor * l.tested)

/-- Some fail bin's fraction is above its limit (R119). -/
def overBinLimit (p : Product) (l : Lot) : Bool :=
  allBins.any fun b =>
    match p.binLimits[b] with
    | some limit => !inSet p.passBins b && decide (limit * l.tested < l.bins[b] * 10000)
    | none => false

/-- Stage 9, on the lot's counts (R118, R119). -/
def screenStage (i : SlotId) (p : Product) (l : Lot) (s : State) : State :=
  if l.tested < p.minSample then s
  else
    let s := if lowYield p l then autoHold i .lowYield s else s
    if overBinLimit p l then autoHold i .binLimit s else s

/-! ## The whole touchdown -/

/-- Stages 4 to 9 of a pass-0 touchdown with at least one counted site (R101). -/
def judgeTouchdown (c : CellId) (i : SlotId) (number : Nat) (a : Counting) (s : State) : State :=
  let p := productOf s a.lot
  let n := a.counted.length
  let g := (a.counted.filter fun q => inSet p.passBins q.2).length
  let s := failRunStage c p a.lot.ident number a.counted s
  let soaking := decide (0 < (getCell s c).soak)
  let s := modCell c (yieldStage (touchdownYield g n) (shiftOf s c) (groupOf s c).corrInterval) s
  let s := driftStage c a.lot.product p.driftFloor soaking s
  screenStage i p a.lot s

/-- The STALLED cell of an accepted touchdown returns to RUNNING or STOPPING (R57). -/
def unstall (c : CellId) (l : Lot) (s : State) : State :=
  if (getCell s c).state = .stalled then
    enterCellState c (if l.state = .testing then .running else .stopping) id s
  else s

/-- A taken touchdown: number, return from STALLED, deadline, then the stages (R100, R101). -/
def takeTouchdown (c : CellId) (i : SlotId) (l : Lot) (b : TdBody) (s : State) : State :=
  let l := { l with lastTd := b.number }
  let s := setTdDeadline c l (unstall c l (setLot i (some l) s))
  let active := (getCell s c).active
  let s := countBy .siteInactive (inactiveSites active b.sites) s
  let a := countSites l (reportedSites active b)
  let s := setLot i (some a.lot) s
  let s := if a.excess then autoHold i .overcount s else s
  if l.pass = 0 ∧ a.counted ≠ [] then judgeTouchdown c i b.number a s else s

end Sys2Proof.Machine
end

