-- ==== Sys2Proof/Machine/YieldScreen.lean ====
section
/-! DEFINITION. The Yield Screen's command: TD_RESULT (Chapter 6). -/

namespace Sys2Proof.Machine

open Sys2Proof

/-- A cell state in which material runs or is being stopped (R99, R160). -/
def carriesMaterial (x : CellState) : Bool := x == .running || x == .stalled || x == .stopping

/-- A TD_RESULT is accepted for a cell and its lot (R99). -/
def tdAccepted (x : Cell) (l : Lot) (named : LotIdent) (b : TdBody) : Bool :=
  carriesMaterial x.state && l.ident == named && l.pass == b.pass

/-- TD_RESULT of a cell (R99, R100). -/
def takeTdResult (f : Frame) (c : CellId) (s : State) : State :=
  match readTdResult f.body, cellLot s c with
  | none, _ => count .malformed s
  | some _, none => count .late s
  | some b, some (i, l) =>
    if tdAccepted (getCell s c) l f.hdr.lot b then
      if b.number ≤ l.lastTd then count .duplicateTd s else takeTouchdown c i l b s
    else count .late s

/-- TD_RESULT (R99). -/
def execTdResult (f : Frame) (s : State) : Host.Outcome State Fault Refusal :=
  .next (onEquipment .tdResult .tester 23 f (takeTdResult f) s)

end Sys2Proof.Machine
end

