-- ==== Sys2Proof/Machine/ReleaseUnit.lean ====
section
/-! DEFINITION. The Release Unit's commands: LOT_END, QA_RESULT and SHIP_REQUEST (Chapter 9). -/

namespace Sys2Proof.Machine

open Sys2Proof

/-! ## LOT_END (R160 to R166) -/

/-- The pass that has ended is closed: what is left of the pool goes to bin 0 (R161). -/
def closePass (l : Lot) : Lot :=
  if l.pass = 0 then l else { l with bins := l.bins.set 0 (l.bins[0] + l.pool), pool := 0 }

/-- A retest pass is started, not a final end (R161). -/
def retestDue (p : Product) (l : Lot) : Bool :=
  decide (l.pass < p.maxRetest) && decide (0 < binSum p.retestBins l.bins) && !blocked l

/-- The counts of a set of bins set to 0 (R162). -/
def emptyBins (set : BinSet) (bins : Vector Nat 16) : Vector Nat 16 :=
  Vector.ofFn fun b : Bin => if inSet set b then 0 else bins[b]

/-- A lot at a retest start: pool drawn, pass raised, numbering restarted (R162). -/
def retestLot (p : Product) (l : Lot) : Lot :=
  { l with
    pool := binSum p.retestBins l.bins
    bins := emptyBins p.retestBins l.bins
    pass := l.pass + 1
    lastTd := 0 }

/-- The lot and cell of a retest start are TESTING and RUNNING; a state that is so already sends no notice
(R162, step 3). -/
def retestStates (i : SlotId) (c : CellId) (l : Lot) (s : State) : State :=
  let s := modCell c (fun x => { x with intent := .none }) s
  let s := if l.state = .testing then s else enterLotState i .testing none s
  if (getCell s c).state = .running then s else enterCellState c .running id s

/-- A retest pass is started (R162, R163). -/
def startRetest (i : SlotId) (c : CellId) (l : Lot) (s : State) : State :=
  let p := productOf s l
  let unloadAfter := (getCell s c).intent = .unload ∨ (getCell s c).qual = .suspect
  let r := retestLot p l
  let s := retestStates i c r (setLot i (some r) s)
  let s := sendBoth .retest c r.ident (num 2 r.pass ++ num 2 r.pool ++ word16 p.retestBins) s
  let s := setTdDeadline c r s
  if unloadAfter then stopRequest c .unload s else s

/-- The reconciliation of a final end (R165). -/
def reconcile (p : Product) (l : Lot) (b : LotEndBody) : Reconciliation where
  value := if b.goodOut = goodCount p l ∧ b.rejectOut = failCount p l then .matched else .mismatched
  goodOut := b.goodOut
  rejectOut := b.rejectOut

/-- The lot's shortfall is above the product's allowance (R166). -/
def unitsLost (p : Product) (l : Lot) : Bool := decide (p.lossAllowance < l.startQty - l.tested)

/-- The state a final end leaves a lot in (R164, step 3). -/
def endState (p : Product) (l : Lot) : LotState := if goodCount p l = 0 then .empty else .tested

/-- A final end after its CELL_SUSPECT request, on the lot as it then stands (R164, steps 2 to 5). -/
def closeLot (i : SlotId) (c : CellId) (l : Lot) (b : LotEndBody) (s : State) : State :=
  let p := productOf s l
  let r := reconcile p l b
  let s := setLot i (some { l with recon := some r }) s
  let s := modCell c (fun x => { x with intent := .none, tdDeadline := none }) s
  let s := detachTo i c (endState p l) s
  let s := if r.value = .mismatched then autoHold i .reconcile s else s
  let s := if unitsLost p l then autoHold i .unitLoss s else s
  releaseEvaluation i s

/-- The final end of a lot and the lot boundary of its cell (R164). -/
def finalEnd (i : SlotId) (c : CellId) (b : LotEndBody) (s : State) : State :=
  let s := suspectHold c i s
  match getLot s i with
  | none => s
  | some l => lotBoundary c false (closeLot i c l b s)

/-- A taken LOT_END (R161). -/
def endPass (i : SlotId) (c : CellId) (l : Lot) (b : LotEndBody) (s : State) : State :=
  let l := closePass l
  let s := setLot i (some l) s
  if retestDue (productOf s l) l then startRetest i c l s else finalEnd i c b s

/-- A LOT_END is taken for a cell and its lot (R160). -/
def lotEndTaken (x : Cell) (l : Lot) (named : LotIdent) (pass : Nat) : Bool :=
  carriesMaterial x.state && l.ident == named && l.pass == pass

/-- LOT_END of a cell (R160). -/
def takeLotEnd (f : Frame) (c : CellId) (s : State) : State :=
  match readLotEnd f.body, cellLot s c with
  | none, _ => count .malformed s
  | some _, none => count .late s
  | some b, some (i, l) =>
    if lotEndTaken (getCell s c) l f.hdr.lot b.pass then endPass i c l b s else count .late s

/-- LOT_END (R160). -/
def execLotEnd (f : Frame) (s : State) : Host.Outcome State Fault Refusal :=
  .next (onEquipment .lotEnd .handler 6 f (takeLotEnd f) s)

/-! ## QA_RESULT (R168) -/

/-- The answer to a QA_RESULT or SHIP_REQUEST. -/
def replyRequest (k : Kind) (f : Frame) (code : AnswerCode) (contents : List Byte) (s : State) : State :=
  answer (askerOf f) [kindByte k] code contents s

/-- The verdict on a sample against a tier (R168). -/
def verdict (t : Tier) (sample rejects : Nat) : Verdict :=
  if sample < t.sample then .short else if t.accept < rejects then .rejected else .accepted

/-- The hold a verdict asks for (R168). -/
def verdictHold (v : Verdict) (i : SlotId) (s : State) : State :=
  match v with
  | .short => autoHold i .qaShort s
  | .rejected => autoHold i .qaReject s
  | .accepted => s

/-- The tier that judges a lot's sample (R28, R168). -/
def tierOf (s : State) (l : Lot) : Tier :=
  let p := productOf s l
  match s.plans[p.plan] with
  | some tiers => (tierFor tiers (goodCount p l)).getD ⟨0, 0, 0⟩
  | none => ⟨0, 0, 0⟩

/-- A judged sample: recorded, its hold asked for, the lot evaluated (R168). -/
def recordQa (i : SlotId) (q : QaRecord) (s : State) : State :=
  releaseEvaluation i (verdictHold q.verdict i (modLot i (fun l => { l with qa := some q }) s))

/-- A source's role is wrong for a request; no role is checked while COMMISSIONING (R168, R173). -/
def wrongRole (need : Role) (role : Option Role) : Bool :=
  match role with
  | some r => r != need
  | none => false

/-- QA_RESULT addressed to the director (R168). -/
def takeQaResult (f : Frame) (role : Option Role) (s : State) : State :=
  match readQaResult f.body with
  | none => replyRequest .qaResult f .malformed [] s
  | some (sample, rejects) =>
    if sample < rejects then replyRequest .qaResult f .malformed [] s
    else if wrongRole .qa role then replyRequest .qaResult f .authority [] s
    else match (findLot s f.hdr.lot).bind (queuedLot s) with
      | none => replyRequest .qaResult f .unknownLot [] s
      | some (i, l) =>
        if l.state ≠ .tested then replyRequest .qaResult f .badState [] s
        else
          let t := tierOf s l
          let v := verdict t sample rejects
          let s := recordQa i ⟨sample, rejects, v⟩ s
          replyRequest .qaResult f .ok
            (name (verdictCode v) ++ num 2 t.sample ++ num 2 t.accept
              ++ (match getLot s i with
                  | some l => name (lotStateCode l.state)
                  | none => name 0)) s

/-- QA_RESULT (R168). -/
def execQaResult (f : Frame) (s : State) : Host.Outcome State Fault Refusal :=
  .next (onRequest .qaResult f (takeQaResult f) s)

/-! ## SHIP_REQUEST (R173, R174) -/

/-- A denied SHIP_REQUEST. -/
def deny (f : Frame) (code : AnswerCode) (why : ShipOutcome) (s : State) : State :=
  replyRequest .shipRequest f code (name (shipOutcomeCode why)) s

/-- The SHIPPED notice (R174). -/
def shippedNotice (i : SlotId) (l : Lot) (p : Product) (dock : Addr) (s : State) : State :=
  notice .shipped l.ident
    (l.ident.toList ++ index i ++ p.ident.toList ++ num 2 (goodCount p l) ++ num 4 (l.releaseTime.getD 0)
      ++ word16 dock) s

/-- A granted SHIP_REQUEST: the record is freed, which takes it off the release list, then notified and
answered (R174). -/
def grant (f : Frame) (i : SlotId) (l : Lot) (s : State) : State :=
  let p := productOf s l
  let s := shippedNotice i l p f.hdr.src (freeLot i s)
  replyRequest .shipRequest f .ok
    (name (shipOutcomeCode .granted) ++ l.ident.toList ++ p.ident.toList ++ num 2 (goodCount p l)) s

/-- A head request (R173). -/
def shipHead (f : Frame) (s : State) : State :=
  match s.releaseList.head?.bind (queuedLot s) with
  | none => deny f .badState .listEmpty s
  | some (i, l) => grant f i l s

/-- A request that names a lot (R173). -/
def shipNamed (f : Frame) (s : State) : State :=
  match (findLot s f.hdr.lot).bind (queuedLot s) with
  | none => deny f .unknownLot .unknownLot s
  | some (i, l) =>
    if l.state = .released then grant f i l s
    else if !l.holds.isEmpty || l.overflow then deny f .badState .held s
    else deny f .badState .notReady s

/-- SHIP_REQUEST addressed to the director (R173, DESIGN CHOICE log 11). -/
def takeShipRequest (f : Frame) (role : Option Role) (s : State) : State :=
  if !f.body.isEmpty then replyRequest .shipRequest f .malformed [] s
  else if wrongRole .dock role then replyRequest .shipRequest f .authority [] s
  else if f.hdr.lot = noLot then shipHead f s
  else shipNamed f s

/-- SHIP_REQUEST (R173). -/
def execShipRequest (f : Frame) (s : State) : Host.Outcome State Fault Refusal :=
  .next (onRequest .shipRequest f (takeShipRequest f) s)

end Sys2Proof.Machine
end

