-- ==== Sys2Proof/Machine/Dispatch.lean ====
section
/-! DEFINITION. The meaning of each command, one arm per row of spec/opcode_table.json. -/

namespace Sys2Proof.Machine

open Sys2Proof

/-- A command's effect on everything but the queue of commands that wait. -/
def exec (i : Instr) (s : State) : Host.Outcome State Fault Refusal :=
  match i with
  | .coldReset strap => Sys2Proof.Machine.execColdReset strap s
  | .frameLost port etherType payload => Sys2Proof.Machine.execFrameLost port etherType payload s
  | .nonDialogueFrame port etherType payload => Sys2Proof.Machine.execNonDialogueFrame port etherType payload s
  | .unrecognisedKind kind f => Sys2Proof.Machine.execUnrecognisedKind kind f s
  | .malformedFrame port payload => Sys2Proof.Machine.execMalformedFrame port payload s
  | .frameTransmit port => Sys2Proof.Machine.execFrameTransmit port s
  | .workRequest f => Sys2Proof.Machine.execWorkRequest f s
  | .programReady f => Sys2Proof.Machine.execProgramReady f s
  | .loadAbort f => Sys2Proof.Machine.execLoadAbort f s
  | .loadSegment f => Sys2Proof.Machine.execLoadSegment f s
  | .tdResult f => Sys2Proof.Machine.execTdResult f s
  | .stopped f => Sys2Proof.Machine.execStopped f s
  | .unloaded f => Sys2Proof.Machine.execUnloaded f s
  | .lotEnd f => Sys2Proof.Machine.execLotEnd f s
  | .corrResult f => Sys2Proof.Machine.execCorrResult f s
  | .corrEnd f => Sys2Proof.Machine.execCorrEnd f s
  | .qaResult f => Sys2Proof.Machine.execQaResult f s
  | .shipRequest f => Sys2Proof.Machine.execShipRequest f s
  | .lotEnter f => Sys2Proof.Machine.execLotEnter f s
  | .lotPriority f => Sys2Proof.Machine.execLotPriority f s
  | .lotWithdraw f => Sys2Proof.Machine.execLotWithdraw f s
  | .lotQuery f => Sys2Proof.Machine.execLotQuery f s
  | .queueRead f => Sys2Proof.Machine.execQueueRead f s
  | .productWrite f => Sys2Proof.Machine.execProductWrite f s
  | .productDelete f => Sys2Proof.Machine.execProductDelete f s
  | .programWrite f => Sys2Proof.Machine.execProgramWrite f s
  | .programDelete f => Sys2Proof.Machine.execProgramDelete f s
  | .planWrite f => Sys2Proof.Machine.execPlanWrite f s
  | .groupWrite f => Sys2Proof.Machine.execGroupWrite f s
  | .goldenWrite f => Sys2Proof.Machine.execGoldenWrite f s
  | .offsetWrite f => Sys2Proof.Machine.execOffsetWrite f s
  | .tableRead f => Sys2Proof.Machine.execTableRead f s
  | .cellSetConfigure f => Sys2Proof.Machine.execCellSetConfigure f s
  | .cellSetEnable f => Sys2Proof.Machine.execCellSetEnable f s
  | .cellSetDisable f => Sys2Proof.Machine.execCellSetDisable f s
  | .cellSetSiteRestore f => Sys2Proof.Machine.execCellSetSiteRestore f s
  | .cellSetResume f => Sys2Proof.Machine.execCellSetResume f s
  | .cellSetBlockEnd f => Sys2Proof.Machine.execCellSetBlockEnd f s
  | .cellSetCoverEnd f => Sys2Proof.Machine.execCellSetCoverEnd f s
  | .unload f => Sys2Proof.Machine.execUnload f s
  | .cellQuery f => Sys2Proof.Machine.execCellQuery f s
  | .assignNext f => Sys2Proof.Machine.execAssignNext f s
  | .requestClear f => Sys2Proof.Machine.execRequestClear f s
  | .correlateNow f => Sys2Proof.Machine.execCorrelateNow f s
  | .holdPlace f => Sys2Proof.Machine.execHoldPlace f s
  | .holdRelease f => Sys2Proof.Machine.execHoldRelease f s
  | .holdReleaseOverflow f => Sys2Proof.Machine.execHoldReleaseOverflow f s
  | .holdSweep f => Sys2Proof.Machine.execHoldSweep f s
  | .stationWrite f => Sys2Proof.Machine.execStationWrite f s
  | .stationDelete f => Sys2Proof.Machine.execStationDelete f s
  | .stationRead f => Sys2Proof.Machine.execStationRead f s
  | .linkWrite f => Sys2Proof.Machine.execLinkWrite f s
  | .linkRead f => Sys2Proof.Machine.execLinkRead f s
  | .timeSet f => Sys2Proof.Machine.execTimeSet f s
  | .warmReset f => Sys2Proof.Machine.execWarmReset f s
  | .commissionEnd f => Sys2Proof.Machine.execCommissionEnd f s
  | .countersRead f => Sys2Proof.Machine.execCountersRead f s
  | .countersReadClear f => Sys2Proof.Machine.execCountersReadClear f s
  | .sweepStep => Sys2Proof.Machine.execSweepStep s
  | .agingExpiry slot => Sys2Proof.Machine.execAgingExpiry slot s
  | .blockWaitExpiry cell => Sys2Proof.Machine.execBlockWaitExpiry cell s
  | .loadDeadlineExpiry cell => Sys2Proof.Machine.execLoadDeadlineExpiry cell s
  | .touchdownDeadlineExpiry cell => Sys2Proof.Machine.execTouchdownDeadlineExpiry cell s
  | .unloadDeadlineExpiry cell => Sys2Proof.Machine.execUnloadDeadlineExpiry cell s
  | .correlationDeadlineExpiry cell => Sys2Proof.Machine.execCorrelationDeadlineExpiry cell s

end Sys2Proof.Machine
end

