-- ==== Sys2Proof/Machine/Idle.lean ====
section
/-! DEFINITION. What the director does when no command waits: its own due work, or one millisecond (DESIGN CHOICE log 1). -/

namespace Sys2Proof.Machine

open Sys2Proof

/-- The first expiry due among the lots, ascending (R11). -/
def dueAging (s : State) : Option Instr := (allSlots.find? (agingDue s)).map .agingExpiry

/-- The first expiry due among the cells, ascending, of one deadline (R190). -/
def dueCell (s : State) (deadline : Cell → Option Nat) (row : CellId → Instr) : Option Instr :=
  (allCells.find? fun c => reached s (deadline (getCell s c))).map row

/-- An expiry that is due (R190, DESIGN CHOICE log 1). -/
def dueExpiry (s : State) : Option Instr :=
  dueAging s
    <|> dueCell s (fun x => x.blockDeadline) .blockWaitExpiry
    <|> dueCell s (fun x => x.load.map fun r => r.deadline) .loadDeadlineExpiry
    <|> dueCell s (fun x => x.tdDeadline) .touchdownDeadlineExpiry
    <|> dueCell s (fun x => x.unloadDeadline) .unloadDeadlineExpiry
    <|> dueCell s (fun x => x.run.map fun r => r.deadline) .correlationDeadlineExpiry

/-- The frame a port received first, and the machine without it (R178). -/
def takeReceived (p : Port) (s : State) : Option (Instr × State) :=
  match (getPort s p).rx with
  | i :: rest => some (i, setPort p { getPort s p with rx := rest } s)
  | [] => none

/-- A port with a frame to send (R178). -/
def dueTransmit (p : Port) (s : State) : Option Instr :=
  if (getPort s p).tx.isEmpty then none else some (.frameTransmit p)

/-- The director's own next piece of work, and the machine from which it is done: an expiry, a received frame,
a sweep step, a frame to send (DESIGN CHOICE log 1). -/
def ownWork (s : State) : Option (Instr × State) :=
  (dueExpiry s).map (fun i => (i, s))
    <|> takeReceived .cell s
    <|> takeReceived .floor s
    <|> (s.sweep.map fun _ => (Instr.sweepStep, s))
    <|> (dueTransmit .cell s).map (fun i => (i, s))
    <|> (dueTransmit .floor s).map (fun i => (i, s))

/-- One millisecond of monotonic time (R190). -/
def tick (s : State) : State := { s with mono := s.mono + 1 }

/-- A command put at the front of the queue. -/
def putFront (i : Instr) (s : State) : State := { s with pending := i :: s.pending }

end Sys2Proof.Machine
end

