-- ==== Sys2Proof/Machine/Step.lean ====
section
/-! DEFINITION. One step of the machine: the command at the front of the queue, or the director's own work. -/

namespace Sys2Proof.Machine

open Sys2Proof

/-- One step: the waiting command that came first, run with the rest of the queue; where none waits, the
director's own work, and where there is none of that, one millisecond (DESIGN CHOICE log 1). -/
def step (s : State) : Host.Outcome State Fault Refusal :=
  match s.pending with
  | c :: rest => exec c { s with pending := rest }
  | [] =>
    match ownWork s with
    | some (c, t) => exec c t
    | none => .next (tick s)

/-- The command a word of the opcode table spells, put at the front of the queue; no word spells one
(DEDUCED log 28). -/
def State.withFetchWord (s : State) (nbits w : Nat) : State :=
  match decodeTableWord nbits w with
  | some i => putFront i s
  | none => s

end Sys2Proof.Machine
end

