-- ==== Sys2Proof/Safety.lean ====
section
/-! DEFINITION. What a safe step is, and the terms in which statements about the director are made: which
frames reach the block that acts on them, what a command leaves as it was, and the invariants of the state. -/

namespace Sys2Proof

open Sys2Proof.Machine

/-- A step is safe when it answers a next state: it ends in no fault and no refusal. -/
def stepSafe (s : State) : Prop := ∃ t, step s = .next t

/-- A command is safe in a state when it answers a next state. -/
def execSafe (i : Instr) (s : State) : Prop := ∃ t, exec i s = .next t

/-! ## Which frames reach their block -/

/-- The director command of a row, with its required level (Table 10-5, section 3.3) and its frame; the level of a
COUNTERS_READ whose body is not one readable clear byte is log 37. -/
def commandRow? : Instr → Option (Command × Level × Frame)
  | .productWrite f => some (.productWrite, 0, f)
  | .productDelete f => some (.productDelete, 0, f)
  | .programWrite f => some (.programWrite, 0, f)
  | .programDelete f => some (.programDelete, 0, f)
  | .planWrite f => some (.planWrite, 0, f)
  | .groupWrite f => some (.groupWrite, 0, f)
  | .goldenWrite f => some (.goldenWrite, 0, f)
  | .stationWrite f => some (.stationWrite, 0, f)
  | .stationDelete f => some (.stationDelete, 0, f)
  | .linkWrite f => some (.linkWrite, 0, f)
  | .timeSet f => some (.timeSet, 0, f)
  | .warmReset f => some (.warmReset, 0, f)
  | .commissionEnd f => some (.commissionEnd, 0, f)
  | .offsetWrite f => some (.offsetWrite, 1, f)
  | .cellSetConfigure f => some (.cellSet, 1, f)
  | .cellSetEnable f => some (.cellSet, 1, f)
  | .cellSetDisable f => some (.cellSet, 1, f)
  | .cellSetSiteRestore f => some (.cellSet, 1, f)
  | .cellSetResume f => some (.cellSet, 1, f)
  | .cellSetBlockEnd f => some (.cellSet, 1, f)
  | .cellSetCoverEnd f => some (.cellSet, 1, f)
  | .unload f => some (.unload, 1, f)
  | .correlateNow f => some (.correlateNow, 1, f)
  | .lotWithdraw f => some (.lotWithdraw, 1, f)
  | .countersRead f => some (.countersRead, if f.body = [1] then 1 else 3, f)
  | .countersReadClear f => some (.countersRead, if f.body = [1] then 1 else 3, f)
  | .lotEnter f => some (.lotEnter, 2, f)
  | .lotPriority f => some (.lotPriority, 2, f)
  | .assignNext f => some (.assignNext, 2, f)
  | .requestClear f => some (.requestClear, 2, f)
  | .holdPlace f => some (.holdPlace, 3, f)
  | .holdRelease f => some (.holdRelease, 3, f)
  | .holdReleaseOverflow f => some (.holdRelease, 3, f)
  | .holdSweep f => some (.holdSweep, 3, f)
  | .lotQuery f => some (.lotQuery, 3, f)
  | .queueRead f => some (.queueRead, 3, f)
  | .tableRead f => some (.tableRead, 3, f)
  | .cellQuery f => some (.cellQuery, 3, f)
  | .stationRead f => some (.stationRead, 3, f)
  | .linkRead f => some (.linkRead, 3, f)
  | _ => none

/-- A director command reaches the block that owns it: it is addressed to the director, and it comes on the
floor port while COMMISSIONING, or from a known station whose role may send commands and whose effective
level is at most the command's required level (R185, R192). -/
def authorised (need : Level) (f : Frame) (s : State) : Prop :=
  linkFate f s = .openToDirector
    ∨ ∃ st, linkFate f s = .toDirector st ∧ mayCommand st.role = true ∧ effectiveLevel st f ≤ need

/-- The effective level at which a command acts; 0 while COMMISSIONING (R185, R192). -/
def levelOf (f : Frame) (s : State) : Level :=
  match linkFate f s with
  | .toDirector st => effectiveLevel st f
  | _ => 0

/-- A QA_RESULT or SHIP_REQUEST reaches the Release Unit with the role it needs (R168, R173, R192). -/
def requestReaches (need : Role) (f : Frame) (s : State) : Prop :=
  linkFate f s = .openToDirector ∨ ∃ st, linkFate f s = .toDirector st ∧ st.role = need

/-- A frame of an equipment kind comes from a cell's configured tester or handler and has its kind's body
length (R38, R181). -/
def fromEquipment (side : EquipmentSide) (length : Nat) (f : Frame) (s : State) (c : CellId) : Prop :=
  ∃ st, linkFate f s = .across st ∧ attribution side st f s = some c ∧ f.body.length = length

/-- A floor-side load frame comes from a FILE_SERVER station of the table and names a cell by its tester
(R87, R89, R192). -/
def fromFileServer (f : Frame) (s : State) (c : CellId) : Prop :=
  ∃ st, (linkFate f s = .across st ∨ linkFate f s = .openAcross (some st)) ∧ st.role = .fileServer
    ∧ cellOfTester s f.hdr.dst = some c

/-- No cell waits for a lot (R63). -/
def noneWaits (s : State) : Prop := ∀ c, waiting s c = false

/-! ## What a command leaves as it was -/

/-- The tables, the link, the time and the sweep are as they were: all but lots, queue, cells, hold ids,
the release list and the ports. -/
structure Steady (s t : State) : Prop where
  strap : t.strap = s.strap
  stations : t.stations = s.stations
  link : t.link = s.link
  counters : t.counters = s.counters
  mono : t.mono = s.mono
  offset : t.offset = s.offset
  mode : t.mode = s.mode
  nextSeq : t.nextSeq = s.nextSeq
  seqExhausted : t.seqExhausted = s.seqExhausted
  products : t.products = s.products
  programs : t.programs = s.programs
  plans : t.plans = s.plans
  groups : t.groups = s.groups
  offsets : t.offsets = s.offsets
  sweep : t.sweep = s.sweep
  pending : t.pending = s.pending

/-- Every cell but one is as it was. -/
def otherCells (c : CellId) (s t : State) : Prop := ∀ d, d ≠ c → getCell t d = getCell s d

/-- Every lot slot but one is as it was. -/
def otherLots (i : SlotId) (s t : State) : Prop := ∀ j, j ≠ i → getLot t j = getLot s j

/-- Hold ids and the release list are as they were. -/
def sameHolds (s t : State) : Prop := t.nextHoldId = s.nextHoldId ∧ t.releaseList = s.releaseList

/-- Only the ports and one lot and one cell may differ, and the queue. -/
def onlyPair (i : SlotId) (c : CellId) (s t : State) : Prop :=
  Steady s t ∧ sameHolds s t ∧ otherCells c s t ∧ otherLots i s t

/-! ## The frames a command hands to the ports -/

/-- The frames a command handed to a port, where it took none from it. -/
def handedOn (p : Port) (s t : State) : List OutFrame := (getPort t p).tx.drop (getPort s p).tx.length

/-- A frame of the director's own: of a kind, to a station, about a lot, with a body; its level and tag are not said
(Table 10-1, R178). -/
def originated (kind : Byte) (dst : Addr) (lot : LotIdent) (body : List Byte) (s : State) (fr : OutFrame) : Prop :=
  ∃ (level : Byte) (tag : BitVec 16), fr = ⟨s.link.frameType, [2, kind] ++ wordBytes dst ++ wordBytes s.link.own
    ++ [level, 1] ++ wordBytes tag ++ lot.toList ++ wordBytes (BitVec.ofNat 16 body.length) ++ body⟩

/-- A command of a kind was handed to the cell port for a cell's handler (R178). -/
def toHandler (kind : Byte) (c : CellId) (lot : LotIdent) (body : List Byte) (s t : State) : Prop :=
  ∀ a, (getCell t c).handler = some a → ∃ fr ∈ handedOn .cell s t, originated kind a lot body s fr

/-- A command of a kind was handed to the cell port for a cell's tester and for its handler (R38, R178). -/
def toBoth (kind : Byte) (c : CellId) (lot : LotIdent) (body : List Byte) (s t : State) : Prop :=
  (∀ a, (getCell t c).tester = some a → ∃ fr ∈ handedOn .cell s t, originated kind a lot body s fr)
    ∧ toHandler kind c lot body s t

/-- A notice was handed on for the notice station, on the port the station table gives it and else the floor port: of a
kind's number, about a lot, its contents as said; nothing is asked while that station is absent (R187). -/
def told (kind : Byte) (lot : LotIdent) (contents : List Byte → Prop) (s t : State) : Prop :=
  ∀ a p, s.link.notice = some a → (match stationAt s a with | some st => st.side | none => .floor) = p →
    ∃ fr ∈ handedOn p s t, ∃ body, contents body ∧ originated 22 a lot ([kind] ++ body) s fr

/-- Every change of a lot's state sends a LOT_STATE notice of its new state, and every change of a cell's state a
CELL_STATE notice of its new state, to the notice station (R3, R39, R187). -/
def changesNoticed (s t : State) : Prop :=
  (∀ j m, getLot t j = some m → (getLot s j).map (fun l => l.state) ≠ some m.state →
    told 1 m.ident (fun b => ∃ before after, before.length = 2 ∧
      b = m.ident.toList ++ num 2 j.val ++ before ++ [1, BitVec.ofNat 8 (lotStateCode m.state)] ++ after) s t)
  ∧ (∀ c, (getCell t c).state ≠ (getCell s c).state →
    ∃ lot, told 2 lot (fun b => ∃ before after,
      b = num 2 c.val ++ [before, BitVec.ofNat 8 (cellStateCode (getCell t c).state)] ++ after) s t)

/-- A hold that came onto a lot's list, and an overflow flag that was set, sent HOLD_PLACED; one that left the list by a
release or a sweep, and a flag that was cleared, HOLD_REMOVED with who removed it, at which level, and whether by a sweep
(R145, R146, R150, R151). The placed time of a flag's notice is log 31, the model's choice. -/
def holdsNoticed (i : Instr) (s t : State) : Prop :=
  ∀ j l m, getLot s j = some l → getLot t j = some m →
    let about := l.ident.toList ++ num 2 j.val
    let by_ := fun who : List Byte =>
      (∃ f, (i = .holdRelease f ∨ i = .holdReleaseOverflow f) ∧
        who = wordBytes f.hdr.src ++ num 2 (levelOf f s).val ++ [0])
      ∨ (i = .sweepStep ∧ ∃ w, s.sweep = some w ∧ who = wordBytes w.asker.addr ++ num 2 w.captured.val ++ [1])
    (∀ h ∈ m.holds, h ∉ l.holds →
      told 3 l.ident (fun b => ∃ state, b = about ++ holdBytes h ++ [BitVec.ofNat 8 (lotStateCode state), 0]) s t)
    ∧ (l.overflow = false → m.overflow = true →
      told 3 l.ident (fun b => ∃ reason state, 128 ≤ reason ∧ reason ≤ 136 ∧
        b = about ++ holdBytes ⟨0, reason, .blocking, 0, .auto, floorTime s⟩
          ++ [BitVec.ofNat 8 (lotStateCode state), 1]) s t)
    ∧ (∀ h ∈ l.holds, h ∉ m.holds →
      told 4 l.ident (fun b => ∃ who, by_ who ∧
        b = about ++ num 2 h.id ++ [BitVec.ofNat 8 h.reason, BitVec.ofNat 8 (holdKindCode h.kind)] ++ num 2 h.level.val
          ++ who) s t)
    ∧ (l.overflow = true → m.overflow = false →
      told 4 l.ident (fun b => ∃ who reason, by_ who ∧ b = about ++ num 2 0 ++ [reason, 1] ++ num 2 0 ++ who) s t)

/-- A lot that was released sent RELEASED with its product, its good units, the time and the number of lots before it on
the release list; one that a SHIP_REQUEST freed sent SHIPPED with its product, its good units, its release time and the
station that asked; and one that a LOT_WITHDRAW freed sent LOT_STATE with no state after it (R15, R170, R174). That its
last cell, which was not given, stands as zero bytes is log 39, the model's choice. -/
def releasesNoticed (i : Instr) (s t : State) : Prop :=
  (∀ j l m, getLot s j = some l → getLot t j = some m → l.state ≠ .released → m.state = .released →
    told 8 l.ident (fun b => b = l.ident.toList ++ num 2 j.val ++ (productOf t m).ident.toList
      ++ num 2 (goodCount (productOf t m) m) ++ num 4 (floorTime s) ++ num 2 s.releaseList.length) s t)
  ∧ (∀ f j l, i = .shipRequest f → getLot s j = some l → getLot t j = none →
    told 9 l.ident (fun b => ∃ time, (∀ v, l.releaseTime = some v → time = v) ∧
      b = l.ident.toList ++ num 2 j.val ++ (productOf s l).ident.toList ++ num 2 (goodCount (productOf s l) l)
        ++ num 4 time ++ wordBytes f.hdr.src) s t)
  ∧ (∀ f j l, i = .lotWithdraw f → getLot s j = some l → getLot t j = none →
    told 1 l.ident (fun b =>
      b = l.ident.toList ++ num 2 j.val ++ [1, BitVec.ofNat 8 (lotStateCode l.state)] ++ List.replicate 8 0) s t)

/-- The commands that go with a change of a lot on a cell: START, RESUME and RETEST with TESTING, STOP with STOPPING and
UNLOAD with UNLOADING (R49, R51, R52, R72, R162). -/
def lotCommanded (s t : State) : Prop :=
  ∀ j m c, getLot t j = some m → m.cell = some c →
    let p := productOf t m
    let was := fun q => ∃ l, getLot s j = some l ∧ l.state = q
    (m.state = .testing → ¬ was .testing → (∀ l, getLot s j = some l → l.pass = m.pass) →
      (was .paused ∨ was .stopping → toBoth 16 c m.ident (num 2 m.pass) s t) ∧
      (¬ was .paused → ¬ was .stopping →
        toBoth 14 c m.ident (p.ident.toList ++ p.program.ident.toList ++ num 2 p.program.version ++ num 2 m.pass) s t))
    ∧ (∀ l, getLot s j = some l → l.pass ≠ m.pass →
        toBoth 17 c m.ident (num 2 m.pass ++ num 2 m.pool ++ wordBytes p.retestBins) s t)
    ∧ (m.state = .stopping → ¬ was .stopping → toBoth 15 c m.ident (num 2 m.pass) s t)
    ∧ (m.state = .unloading → ¬ was .unloading → toHandler 18 c m.ident (num 2 m.pass) s t)

/-- The frames that go with a cell's own work: CORRELATE with its entry into CORRELATING, and PROGRAM_FETCH to the file
server with a load record or an attempt it did not have before (R86, R128). -/
def cellCommanded (s t : State) : Prop :=
  ∀ c, let x := getCell t c
    let g := groupOf s c
    (x.state = .correlating → (getCell s c).state ≠ .correlating →
      toBoth 19 c noLot (num 2 x.group.val ++ num 2 g.golden.length
        ++ listOf (fun u : Golden => num 2 u.serial) g.golden ++ num 4 g.corrTimeout) s t)
    ∧ (∀ r a st, x.load = some r → (∀ o, (getCell s c).load = some o → o.attempts ≠ r.attempts) →
        x.tester = some a → fileServer s = some st →
        ∃ lot, (r.lot = none → lot = noLot) ∧ (∀ j m, r.lot = some j → getLot t j = some m → lot = m.ident) ∧
          ∃ fr ∈ handedOn .floor s t, originated 20 st.address lot
            (wordBytes a ++ r.program.ident.toList ++ num 2 r.program.version ++ num 2 r.expected ++ num 2 r.attempts) s fr)

/-! ## Outcomes that several commands share -/

/-- A QUEUED lot has been assigned to a cell: the two name each other, the lot has left the queue, the latch
is clear, and the lot is TESTING on a RUNNING cell that held its program or ASSIGNED on a LOADING one (R71). -/
def assigned (i : SlotId) (c : CellId) (s t : State) : Prop :=
  ∃ l m, getLot s i = some l ∧ getLot t i = some m ∧ m.cell = some c ∧ (getCell t c).lot = some i
    ∧ (getCell t c).latch = false ∧ (getCell t c).latchTime = 0 ∧ (getCell t c).blockDeadline = none
    ∧ t.queue = s.queue.erase i
    ∧ (if (getCell s c).loaded = some (productOf s l).program then m.state = .testing ∧ (getCell t c).state = .running
       else m.state = .assigned ∧ (getCell t c).state = .loading)
    ∧ onlyPair i c s t

/-- A correlation has been started on a cell (R128). -/
def correlating (c : CellId) (s t : State) : Prop :=
  let x := getCell s c
  let y := getCell t c
  y.state = .correlating ∧ y.run = some ⟨[], s.mono + (groupOf s c).corrTimeout⟩ ∧ y.latch = false ∧ y.latchTime = 0
    ∧ y.reserved = none ∧ y.blockRemaining = 0 ∧ y.blockDeadline = none ∧ y.downReason = none ∧ y.qual = x.qual
    ∧ y.lot = x.lot ∧ (isStandby s c = true → y.actingFor = none)

/-- A lot's record with a new class, its stamps, and its place in the queue where it is QUEUED (R12, R13). -/
def reclassed (i : SlotId) (cls : Fin 4) (l : Lot) (s : State) : State :=
  let m := { l with priority := cls, lastPromotion := floorTime s, agingStart := s.mono }
  let t := { s with lots := s.lots.set i (some m) }
  if l.state = .queued then { t with queue := insertLot t i m (s.queue.erase i) } else t

/-- A cell that has lost what names a product: its last product and its reservation (R22). -/
def withoutProduct (p : ProductId) (x : Cell) : Cell :=
  let y := if x.lastProduct = some p then { x with lastProduct := none } else x
  if x.reserved = some p then { y with reserved := none, blockRemaining := 0, blockDeadline := none } else y

/-- A command ends a cell's load attempt with an outcome (R88 to R90). -/
def endsAttempt (i : Instr) (c : CellId) (r : LoadRecord) (outcome : LoadOutcome) (s : State) : Prop :=
  (∃ f name, i = .programReady f ∧ fromEquipment .tester 10 f s c ∧ readProgramReady f.body = some name
      ∧ outcome = if name ≠ r.program then .mismatch else if r.expected ≤ r.seen then .done else .short)
    ∨ (∃ f, i = .loadAbort f ∧ f.port = .cell ∧ fromEquipment .tester 0 f s c ∧ outcome = .aborted)
    ∨ (∃ f, i = .loadAbort f ∧ f.port = .floor ∧ fromFileServer f s c ∧ f.body = [] ∧ outcome = .aborted)
    ∨ (i = .loadDeadlineExpiry c ∧ r.deadline ≤ s.mono ∧ outcome = .timeout)

/-- A command ends a cell's correlation run (R131). -/
def endsRun (i : Instr) (c : CellId) (r : RunRecord) (s : State) : Prop :=
  (∃ f, i = .corrEnd f ∧ fromEquipment .tester 0 f s c)
    ∨ (i = .correlationDeadlineExpiry c ∧ r.deadline ≤ s.mono)

/-- What a cell's work came to is told: LOAD_OUTCOME at the end of each load attempt, with its counts and what follows it;
CORR_OUTCOME at the end of a run, with how it ended, whether it passed and its numbers; SITE_DISABLED for each site that a
touchdown takes out of use (R91, R110, R132). That the header of LOAD_OUTCOME names the load record's lot, and that
of SITE_DISABLED the lot of the touchdown, is log 38, the model's choice. -/
def workNoticed (i : Instr) (s t : State) : Prop :=
  (∀ c r o a, (getCell s c).load = some r → endsAttempt i c r o s → (getCell s c).tester = some a →
    let retried := r.attempts ≤ (groupOf s c).loadRetries ∧ findProgram s r.program ≠ none
    let follows := if o = .done then (if r.lot = none then 2 else 1) else if retried then 3 else 4
    ∃ lot, (r.lot = none → lot = noLot) ∧ (∀ j l, r.lot = some j → getLot s j = some l → lot = l.ident) ∧
      told 5 lot (fun b => ∃ named, named.length = 17 ∧
        b = num 2 c.val ++ wordBytes a ++ r.program.ident.toList ++ num 2 r.program.version ++ num 2 r.attempts
          ++ [BitVec.ofNat 8 (loadOutcomeCode o)] ++ num 2 r.expected ++ num 2 r.seen ++ num 2 (r.expected - r.seen)
          ++ named ++ [follows]) s t)
  ∧ (∀ c r, (getCell s c).run = some r → endsRun i c r s →
    let g := groupOf s c
    let reported := g.golden.filter fun u => r.results.any fun e => e.serial = u.serial
    let missed := g.golden.filter fun u => ¬ ∃ code, reportedCode r u = some code ∧ code = u.bin.val
    told 6 noLot (fun b => ∃ how rest, ((∃ f, i = .corrEnd f) → how = 1) ∧ ((∀ f, i ≠ .corrEnd f) → how = 2) ∧
      b = num 2 c.val ++ num 2 (getCell s c).group.val ++ [how, if missed.length ≤ g.allowed then 1 else 2]
        ++ num 2 g.golden.length ++ num 2 reported.length ++ num 2 missed.length ++ num 2 g.allowed ++ rest) s t)
  ∧ (∀ f c j l (d : TdBody) (k : Site), i = .tdResult f → readTdResult f.body = some d → cellLot s c = some (j, l) →
    inSet (getCell s c).active k = true → inSet (getCell t c).active k = false →
    told 7 l.ident (fun b => ∃ left : SiteSet, b = num 2 c.val ++ num 2 k.val ++ num 2 (productOf s l).failRunLimit
      ++ l.ident.toList ++ num 4 d.number ++ wordBytes left ++ num 2 (size left)) s t)

/-! ## Invariants -/

/-- A lot's units: its bins and pool hold exactly its first-pass tested units, which are at most its start
quantity, and its pool is 0 in pass 0 (R108, R118). -/
def lotUnits (l : Lot) : Prop :=
  l.bins.toList.sum + l.pool = l.tested ∧ l.tested ≤ l.startQty ∧ (l.pass = 0 → l.pool = 0)

/-- Every lot's units are in order (R108). -/
def unitsKept (s : State) : Prop := ∀ i l, getLot s i = some l → lotUnits l

/-- The states that a lot and the cell it is on have together (Table 1-2). -/
def pairStates : LotState → CellState → Bool
  | .assigned, .loading => true
  | .testing, .running | .testing, .stalled => true
  | .stopping, .stopping | .stopping, .stalled => true
  | .paused, .paused => true
  | .unloading, .unloading => true
  | _, _ => false

/-- A cell that names no lot carries none, and is in a state in which it need not (R4, Table 3-3). -/
def mayBeEmpty : CellState → Bool
  | .offline | .idle | .loading | .correlating | .down => true
  | .running | .stalled | .stopping | .paused | .unloading => false

/-- A lot on a cell is named by that cell (R4). -/
def named (i : SlotId) (l : Lot) (s : State) : Prop := ∀ c, l.cell = some c → (getCell s c).lot = some i

/-- A lot's state is one its holds allow: a QUEUED, ASSIGNED or TESTING lot has no blocking hold and a clear overflow
flag, and a RELEASED lot no hold at all and an ACCEPTED QA record (R149, R171). -/
def holdsAllow (l : Lot) : Prop :=
  (l.state = .queued ∨ l.state = .assigned ∨ l.state = .testing → blocked l = false)
    ∧ (l.state = .released → l.holds = [] ∧ l.overflow = false ∧ ∃ q, l.qa = some q ∧ q.verdict = .accepted)

/-- A cell's records go with its state: it carries a lot where its state asks for one, a load record exactly while
LOADING, a run record exactly while CORRELATING, an unload deadline only while UNLOADING, and its load record names its
lot (R4, R52, R84, section 7.4). -/
def recordsFit (x : Cell) : Prop :=
  (x.lot = none → mayBeEmpty x.state = true)
    ∧ (x.load.isSome = true ↔ x.state = .loading)
    ∧ (x.run.isSome = true ↔ x.state = .correlating)
    ∧ (x.unloadDeadline.isSome = true → x.state = .unloading)
    ∧ ∀ r, x.load = some r → r.lot = x.lot

/-- Lots, cells, queue and release list agree: a lot and a cell name each other and are in states that go
together, a lot's holds and a cell's records are those its state allows, the queue holds the QUEUED lots and the
release list the RELEASED ones, each once (R4, R6, R84, R149, R171, Table 1-2). -/
def pairsKept (s : State) : Prop :=
  (∀ i l, getLot s i = some l → l.cell.isSome = onCell l ∧ named i l s ∧ holdsAllow l
      ∧ ∀ c, l.cell = some c → pairStates l.state (getCell s c).state = true)
    ∧ (∀ c i, (getCell s c).lot = some i → ∃ l, getLot s i = some l ∧ l.cell = some c)
    ∧ (∀ c, recordsFit (getCell s c))
    ∧ (s.queue.Nodup ∧ ∀ i, i ∈ s.queue ↔ ∃ l, getLot s i = some l ∧ l.state = .queued)
    ∧ (s.releaseList.Nodup ∧ ∀ i, i ∈ s.releaseList ↔ ∃ l, getLot s i = some l ∧ l.state = .released)

/-- The dispatch queue stands by class descending, and within a class by entry sequence ascending (R6). -/
def queueOrdered (s : State) : Prop :=
  s.queue.Pairwise fun a b => ∀ l m, getLot s a = some l → getLot s b = some m →
    m.priority < l.priority ∨ (l.priority = m.priority ∧ l.entrySeq < m.entrySeq)

/-- The number of lot records that name a product (R24). -/
def lotsOf (s : State) (p : ProductId) : Nat :=
  ((List.finRange 256).filter fun i =>
    match getLot s i with
    | some l => l.product == p
    | none => false).length

/-- No two lots share an identifier or an entry sequence, every sequence given lies before the counter, and
every lot's product is defined and counts its lots (R2, R24). -/
def recordsKept (s : State) : Prop :=
  (∀ i j l m, i ≠ j → getLot s i = some l → getLot s j = some m → l.ident ≠ m.ident ∧ l.entrySeq ≠ m.entrySeq)
    ∧ (∀ i l, getLot s i = some l →
        l.entrySeq ≤ s.nextSeq ∧ (s.seqExhausted = false → l.entrySeq < s.nextSeq) ∧ s.products[l.product] ≠ none)
    ∧ (∀ (p : ProductId) e, s.products[p] = some e → e.inUse = lotsOf s p)
    ∧ 1 ≤ s.nextSeq ∧ s.nextSeq ≤ 4294967295

/-- A hold list holds at most eight records, no two of one reason and origin (R140). -/
def holdList (holds : List Hold) : Prop :=
  holds.length ≤ 8 ∧ holds.Pairwise fun a b => ¬(a.reason = b.reason ∧ a.origin = b.origin)

/-- A hold's fields go together: an id of 1..65535; a station hold has a reason of 1..127, and an automatic one a reason of
128..136 and the kind Table 8-2 gives it, ADVISORY for CELL_SUSPECT alone (R141, R142, Tables 8-1 and 8-2). -/
def holdKept (h : Hold) : Prop :=
  1 ≤ h.id ∧ h.id ≤ 65535
    ∧ (h.origin = .auto → 128 ≤ h.reason ∧ h.reason ≤ 136 ∧ (h.kind = .advisory ↔ h.reason = 135))
    ∧ (h.origin ≠ .auto → 1 ≤ h.reason ∧ h.reason ≤ 127)

/-- Every lot's hold list is in order with every hold's fields, no id is held twice on the floor, and the hold-id counter
is 1..65535 (R140, R141). -/
def holdsKept (s : State) : Prop :=
  (∀ i l, getLot s i = some l → holdList l.holds ∧ l.holds.Pairwise (fun a b => a.id ≠ b.id)
      ∧ ∀ h ∈ l.holds, holdKept h)
    ∧ (∀ i j l m a b, i ≠ j → getLot s i = some l → getLot s j = some m → a ∈ l.holds → b ∈ m.holds → a.id ≠ b.id)
    ∧ 1 ≤ s.nextHoldId ∧ s.nextHoldId ≤ 65535

/-- A product entry's stored values: each field in its range, no retest bin and no bin limit of a pass bin (Table 2-2). -/
def productKept (p : Product) : Prop :=
  (∀ k : Fin 12, 32 ≤ p.ident[k].toNat ∧ p.ident[k].toNat ≤ 126)
    ∧ p.passBins ≠ 0 ∧ inSet p.passBins 0 = false ∧ p.retestBins &&& p.passBins = 0 ∧ p.maxRetest ≤ 2
    ∧ 1 ≤ p.minSample ∧ p.minSample ≤ 65535
    ∧ p.yieldFloor ≤ 10000 ∧ p.expectedYield ≤ 10000 ∧ p.driftFloor ≤ 10000
    ∧ (∀ (k : Bin) (limit : Nat), p.binLimits[k] = some limit → limit ≤ 10000 ∧ inSet p.passBins k = false)
    ∧ (p.failRunLimit = 0 ∨ 2 ≤ p.failRunLimit ∧ p.failRunLimit ≤ 31) ∧ 1 ≤ p.minActive ∧ p.minActive ≤ 16
    ∧ 1000 ≤ p.tdTimeout ∧ p.tdTimeout ≤ 600000 ∧ p.lossAllowance ≤ 65535

/-- A program's stored values (section 2.3). -/
def programKept (p : Program) : Prop :=
  (∀ k : Fin 8, 32 ≤ p.name.ident[k].toNat ∧ p.name.ident[k].toNat ≤ 126)
    ∧ p.name.version ≤ 255 ∧ 1 ≤ p.segments ∧ p.segments ≤ 4096

/-- A group entry's stored values; the golden units' expected bins are 0..15 by their type (Table 2-5). -/
def groupKept (g : Group) : Prop :=
  1 ≤ g.iirCode ∧ g.iirCode ≤ 6 ∧ 1 ≤ g.golden.length ∧ g.golden.length ≤ 16
    ∧ (∀ u ∈ g.golden, 1 ≤ u.serial ∧ u.serial ≤ 65535)
    ∧ g.golden.Pairwise (fun a b => a.serial ≠ b.serial) ∧ g.allowed ≤ 15 ∧ g.corrInterval ≤ 65535
    ∧ 10000 ≤ g.corrTimeout ∧ g.corrTimeout ≤ 7200000 ∧ 1000 ≤ g.loadTimeout ∧ g.loadTimeout ≤ 3600000
    ∧ 1000 ≤ g.unloadTimeout ∧ g.unloadTimeout ≤ 3600000 ∧ g.loadRetries ≤ 3
    ∧ (g.blockWait = 0 ∨ 1000 ≤ g.blockWait ∧ g.blockWait ≤ 86400000)

/-- A plan's tiers: one to six, max lot sizes ascending, no accept number above its sample (R27). -/
def planKept (tiers : List Tier) : Prop :=
  1 ≤ tiers.length ∧ tiers.length ≤ 6 ∧ tiers.Pairwise (fun a b => a.maxLot < b.maxLot)
    ∧ ∀ t ∈ tiers, 1 ≤ t.maxLot ∧ t.maxLot ≤ 65535 ∧ 1 ≤ t.sample ∧ t.sample ≤ 65535 ∧ t.accept ≤ t.sample

/-- The offset map holds at most 256 entries, one a key, each -500..500 and not 0 (R33). -/
def offsetsKept (offsets : List Offset) : Prop :=
  offsets.length ≤ 256 ∧ offsets.Pairwise (fun a b => keyBefore a b = true)
    ∧ ∀ o ∈ offsets, o.value ≠ 0 ∧ -500 ≤ o.value ∧ o.value ≤ 500

/-- What the tables name is defined, and nothing is defined twice: product identifiers and program names are distinct, a
product's program is in the library and its plan is defined, a standby is configured in its group, and an offset's product
is defined (Tables 2-2 and 2-5, R23, R25, R27, R29, R41). That a standby is a configured cell is log 18. -/
def tablesAgree (s : State) : Prop :=
  (∀ (i j : ProductId) p q, i ≠ j → s.products[i] = some p → s.products[j] = some q → p.ident ≠ q.ident)
    ∧ (∀ (i j : ProgramIx) p q, i ≠ j → s.programs[i] = some p → s.programs[j] = some q → p.name ≠ q.name)
    ∧ (∀ (i : ProductId) p, s.products[i] = some p →
        s.plans[p.plan] ≠ none ∧ ∃ (k : ProgramIx) (q : Program), s.programs[k] = some q ∧ q.name = p.program)
    ∧ (∀ (i : GroupId) g c, s.groups[i] = some g → g.standby = some c →
        configured (getCell s c) = true ∧ (getCell s c).group = i)
    ∧ ∀ o ∈ s.offsets, s.products[o.product] ≠ none

/-- Every configuration table holds values its rules store, and the tables agree (Chapter 2). -/
def tablesKept (s : State) : Prop :=
  (∀ (i : ProductId) p, s.products[i] = some p → productKept p)
    ∧ (∀ (i : ProgramIx) p, s.programs[i] = some p → programKept p)
    ∧ (∀ (i : PlanId) p, s.plans[i] = some p → planKept p)
    ∧ (∀ (i : GroupId) g, s.groups[i] = some g → groupKept g)
    ∧ offsetsKept s.offsets ∧ tablesAgree s

/-- A cell's masks, counts and latch (R46, R63, R109, R113, R115, R116, R77). -/
def cellKept (x : Cell) : Prop :=
  x.active &&& ~~~x.installed = 0 ∧ x.average ≤ 2560000 ∧ x.soak ≤ 256 ∧ x.sinceCorr ≤ 65535
    ∧ (∀ k : Site, x.failRuns[k] ≤ 31) ∧ (x.latch = false → x.latchTime = 0) ∧ x.blockRemaining ≤ 16
    ∧ (x.reserved = none → x.blockRemaining = 0 ∧ x.blockDeadline = none)

/-- Every cell is in order. -/
def cellsKept (s : State) : Prop := ∀ c, cellKept (getCell s c)

/-- The law of sites: a RUNNING cell, and one whose lot is ASSIGNED or TESTING, has at least as many active sites as its
lot's product asks for and is not SUSPECT; one that stops or pauses a lot with fewer is SUSPECT; an IDLE cell is not
SUSPECT, and an UNQUALIFIED one is OFFLINE, CORRELATING or DOWN (R46, R51, R125, R127, R134). -/
def sitesKept (s : State) : Prop :=
  ∀ c, let x := getCell s c
    (x.qual = .unqualified → x.state = .offline ∨ x.state = .correlating ∨ x.state = .down)
    ∧ (x.qual = .suspect → x.state ≠ .idle)
    ∧ ∀ i l, x.lot = some i → getLot s i = some l →
      let enough := (productOf s l).minActive ≤ size x.active
      (x.state = .running ∨ l.state = .assigned ∨ l.state = .testing → x.qual ≠ .suspect ∧ enough)
      ∧ (l.state = .stopping ∨ l.state = .paused → x.qual = .suspect ∨ enough)

/-- A station table entry's fields (R183). -/
def stationKept (st : Station) : Prop :=
  st.address ≠ 0 ∧ st.address ≠ 65535
    ∧ (if st.role = .tester ∨ st.role = .handler then st.cell.isSome = true ∧ st.side = .cell
       else st.cell = none ∧ st.side = .floor)

/-- The Link Unit's state: ports within their capacities, counters of 32 bits, legal and distinct station
addresses, a legal own address, a dialogue frame type of at least 0x0600, and an entry of role FLOOR at level
0 while OPERATING (R178, R183, R184, R188, R189, R193). -/
def linkKept (s : State) : Prop :=
  (∀ p, (getPort s p).rx.length ≤ 64 ∧ (getPort s p).tx.length ≤ 256)
    ∧ s.counters.unknownStation ≤ 4294967295 ∧ s.counters.badState ≤ 4294967295 ∧ s.counters.late ≤ 4294967295
    ∧ s.counters.duplicateTd ≤ 4294967295 ∧ s.counters.siteInactive ≤ 4294967295
    ∧ s.counters.malformed ≤ 4294967295 ∧ s.offset < 4294967296
    ∧ s.link.own ≠ 0 ∧ s.link.own ≠ 65535 ∧ 0x0600 ≤ s.link.frameType.toNat
    ∧ (s.link.aging = 0 ∨ 60000 ≤ s.link.aging ∧ s.link.aging ≤ 86400000)
    ∧ (∀ (i : StationIx) st, s.stations[i] = some st → stationKept st ∧ st.address ≠ s.link.own)
    ∧ (∀ (i j : StationIx) a b, i ≠ j → s.stations[i] = some a → s.stations[j] = some b → a.address ≠ b.address)
    ∧ (s.mode = .operating →
        ∃ (i : StationIx) (st : Station), s.stations[i] = some st ∧ st.role = .floor ∧ st.level = 0)

end Sys2Proof
end

