-- ==== Sys2Proof/Certificates/Slice0/Obligations.lean ====
section
/-! DEFINITION. The statements for the provers. -/

open Sys2Proof Sys2Proof.Machine

/-! ## The step -/

/-- A step runs the command that has waited longest, with the rest of the queue. -/
def Obligations.StepTakesTheFrontCommand : Prop :=
  ∀ (c : Instr) (rest : List Instr) (s : State),
    s.pending = c :: rest → step s = exec c { s with pending := rest }

/-- Every command answers a next state in every state, and so does every step; where no command waits, the director does
its own work, in the order of log 1 (the model's choice). -/
def Obligations.NoCommandStopsTheDirector : Prop :=
  (∀ (i : Instr) (s : State), execSafe i s) ∧ (∀ s : State, stepSafe s) ∧
  (∀ s : State, s.pending = [] →
     (∀ i, dueExpiry s = some i → step s = exec i s) ∧
     (dueExpiry s = none →
       (∀ i rest, s.cellPort.rx = i :: rest → step s = exec i { s with cellPort := { s.cellPort with rx := rest } }) ∧
       (s.cellPort.rx = [] →
         (∀ i rest, s.floorPort.rx = i :: rest →
           step s = exec i { s with floorPort := { s.floorPort with rx := rest } }) ∧
         (s.floorPort.rx = [] →
           (s.sweep ≠ none → step s = exec .sweepStep s) ∧
           (s.sweep = none →
             (s.cellPort.tx ≠ [] → step s = exec (.frameTransmit .cell) s) ∧
             (s.cellPort.tx = [] →
               (s.floorPort.tx ≠ [] → step s = exec (.frameTransmit .floor) s) ∧
               (s.floorPort.tx = [] → step s = .next { s with mono := s.mono + 1 })))))))

/-! ## Frames -/

/-- The bytes of a well-formed command's frame spell that command (R182, Tables 10-1, 10-3, 10-5, 3-5). -/
def Obligations.EncodedFramesDecodeToTheirCommand : Prop :=
  ∀ (dialogueType : BitVec 16) (heard : Option Addr) (i : Instr) (p : Port) (t : BitVec 16) (payload : List Byte),
    wellFormed dialogueType i = true → encode dialogueType i = some (p, t, payload) →
    (∀ k lead f, frameRow? i = some (k, lead, f) → f.heardAs = heard) →
    ofWire heard dialogueType p t payload = i

/-- Whatever bytes arrive, the command they spell is well-formed and carries every one of them, so that a
forwarded copy is the frame that came (R178, R181). -/
def Obligations.DecodedFramesEncodeToTheirBytes : Prop :=
  ∀ (dialogueType : BitVec 16) (heard : Option Addr) (p : Port) (t : BitVec 16) (payload : List Byte),
    wellFormed dialogueType (ofWire heard dialogueType p t payload) = true ∧
    encode dialogueType (ofWire heard dialogueType p t payload) = some (p, t, payload) ∧
    ∀ k lead f, frameRow? (ofWire heard dialogueType p t payload) = some (k, lead, f) → f.heardAs = heard

/-- A frame that finds 64 frames at its port is lost, and any other waits behind them; other traffic crosses
unchanged, and a port sends its frames in the order they were handed to it (R178; that an arrival which is not
lost stands in the row FRAME_LOST is the model's choice, log 3). -/
def Obligations.ArrivalsWaitAndPortsSendInOrder : Prop :=
  (∀ (p : Port) (t : BitVec 16) (payload : List Byte) (s : State),
     (64 ≤ (getPort s p).rx.length → exec (.frameLost p t payload) s = .next s) ∧
     ((getPort s p).rx.length < 64 →
       exec (.frameLost p t payload) s =
         .next (setPort p { getPort s p with
           rx := (getPort s p).rx ++ [ofWire (some s.link.own) s.link.frameType p t payload] } s))) ∧
  (∀ (p : Port) (s : State),
     (∀ t payload, (getPort s (otherPort p)).tx.length < 256 →
       exec (.nonDialogueFrame p t payload) s =
         .next (setPort (otherPort p) { getPort s (otherPort p) with
           tx := (getPort s (otherPort p)).tx ++ [⟨t, payload⟩]
           handed := (getPort s (otherPort p)).handed + 1 } s)) ∧
     (∀ t payload, 256 ≤ (getPort s (otherPort p)).tx.length →
       exec (.nonDialogueFrame p t payload) s =
         .next (setPort (otherPort p) { getPort s (otherPort p) with
           handed := (getPort s (otherPort p)).handed + 1 } s)) ∧
     (∀ fr rest, (getPort s p).tx = fr :: rest →
       exec (.frameTransmit p) s = .next (setPort p { getPort s p with tx := rest, wire := some fr } s)) ∧
     ((getPort s p).tx = [] → exec (.frameTransmit p) s = .next s))

/-- What settles a frame before its kind is looked at, whatever its row: a malformed one is counted and discarded; one
marked as a director's, a broadcast, or one on the cell port while COMMISSIONING is forwarded; one from a source the
station table does not hold for its port is counted UNKNOWN_STATION, answered where it is addressed to the director
and forwarded where it is not (R179, R180, R188, R192). That the answer names the command byte as carried is log 23. -/
def Obligations.FramesThatAreNotActedOn : Prop :=
  (∀ (p : Port) (payload : List Byte) (s : State),
     let h := headerOf payload
     (payload.length < 28 ∨ payload.length < 28 + bodyLengthOf payload ∨ h.version ≠ 2 ∨ h.flags &&& 0xFE ≠ 0
         ∨ h.src = 0 ∨ h.dst = 0 →
       exec (.malformedFrame p payload) s =
         .next { s with counters := { s.counters with malformed := min (s.counters.malformed + 1) 4294967295 } }) ∧
     (28 + bodyLengthOf payload ≤ payload.length → h.version = 2 → h.flags &&& 0xFE = 0 → h.src ≠ 0 → h.dst ≠ 0 →
       exec (.malformedFrame p payload) s = .next s)) ∧
  (∀ (i : Instr) (k : Byte) (lead : List Byte) (f : Frame) (s : State), frameRow? i = some (k, lead, f) →
     (f.hdr.version ≠ 2 ∨ f.hdr.flags &&& 0xFE ≠ 0 ∨ f.hdr.src = 0 ∨ f.hdr.dst = 0 →
       exec i s =
         .next { s with counters := { s.counters with malformed := min (s.counters.malformed + 1) 4294967295 } }) ∧
     (f.hdr.version = 2 → f.hdr.flags &&& 0xFE = 0 → f.hdr.src ≠ 0 → f.hdr.dst ≠ 0 →
       (f.hdr.flags &&& 1 = 1 ∨ f.hdr.dst = 65535 ∨ s.mode = .commissioning ∧ f.port = .cell) →
       exec i s = .next (forward k lead f s))) ∧
  (∀ (i : Instr) (k : Byte) (lead : List Byte) (f : Frame) (s : State), frameRow? i = some (k, lead, f) →
     s.mode = .operating → f.hdr.version = 2 → f.hdr.flags = 0 → f.hdr.src ≠ 0 → f.hdr.dst ≠ 0 → f.hdr.dst ≠ 65535 →
     (∀ (j : StationIx) st, s.stations[j] = some st → st.address = f.hdr.src → st.side ≠ f.port) →
     let counted := { s with
       counters := { s.counters with unknownStation := min (s.counters.unknownStation + 1) 4294967295 } }
     (f.hdr.dst = f.heardAs.getD s.link.own →
       exec i s = .next (answer ⟨f.port, f.hdr.src, f.hdr.tag, f.hdr.lot⟩
         (if k = 13 then [k, (lead ++ f.body).headD 0] else [k]) .unknownStation [] counted)) ∧
     (f.hdr.dst ≠ f.heardAs.getD s.link.own → exec i s = .next (forward k lead f counted)))

/-- A frame of a kind that no rule acts on: forwarded where it is addressed elsewhere, counted MALFORMED where it is
addressed to the director, and a COMMAND that names nothing is answered (R181, R185; log 26). R181 gives the first two for
a known station's frame of another kind than COMMAND; that a COMMAND addressed elsewhere is forwarded, named or not, is
log 12, and that an unrecognised kind addressed to the director is counted MALFORMED while COMMISSIONING is log 13: both
are the model's inferences. -/
def Obligations.UnrecognisedKindsAreForwardedOrCounted : Prop :=
  ∀ (k : Byte) (f : Frame) (s : State),
    (∀ st, linkFate f s = .across st → exec (.unrecognisedKind k f) s = .next (forward k [] f s)) ∧
    (∀ st, linkFate f s = .openAcross st → exec (.unrecognisedKind k f) s = .next (forward k [] f s)) ∧
    (∀ st, k ≠ 13 → linkFate f s = .toDirector st →
      exec (.unrecognisedKind k f) s = .next (count .malformed s)) ∧
    (k ≠ 13 → linkFate f s = .openToDirector → exec (.unrecognisedKind k f) s = .next (count .malformed s)) ∧
    (linkFate f s = .openToDirector →
      exec (.unrecognisedKind 13 f) s = .next (answer (askerOf f) [13, f.body.headD 0] .malformed [] s)) ∧
    (∀ st, linkFate f s = .toDirector st →
      (mayCommand st.role = true → (f.body.headD 0 ≠ 15 ∨ effectiveLevel st f ≤ 1) →
        exec (.unrecognisedKind 13 f) s = .next (answer (askerOf f) [13, f.body.headD 0] .malformed [] s)) ∧
      (mayCommand st.role = false ∨ f.body.headD 0 = 15 ∧ 1 < effectiveLevel st f →
        exec (.unrecognisedKind 13 f) s = .next (answer (askerOf f) [13, f.body.headD 0] .authority [] s)))

/-- A director command from a station whose role may not send commands, or at a level weaker than the command requires,
is answered AUTHORITY and changes nothing else; one that reaches its block is answered, a refused one changing nothing
else, while a taken HOLD_SWEEP is answered later and LINK_WRITE under the record it replaces; QA_RESULT and SHIP_REQUEST
need the roles QA and DOCK (R185, R186, Table 10-5, R154, R168, R173, R189). That a COUNTERS_READ whose body is not one
readable clear byte needs no level is log 37, the model's choice. -/
def Obligations.CommandsNeedTheirLevelAndAreAnswered : Prop :=
  (∀ (i : Instr) (c : Command) (need : Level) (f : Frame) (s : State) (st : Station),
     commandRow? i = some (c, need, f) → linkFate f s = .toDirector st →
     ((st.role ≠ .floor ∧ st.role ≠ .engineering ∧ st.role ≠ .supervisor ∧ st.role ≠ .console)
       ∨ need.val < max st.level.val (min f.hdr.level.toNat 3)) →
     exec i s = .next (reply c f .authority [] s)) ∧
  (∀ (i : Instr) (c : Command) (need : Level) (f : Frame) (s : State),
     commandRow? i = some (c, need, f) → authorised need f s →
     (∃ code contents, code ≠ .ok ∧ exec i s = .next (reply c f code contents s))
       ∨ (∃ contents t, exec i s = .next (reply c f .ok contents t))
       ∨ (c = .holdSweep ∧ s.sweep = none ∧ ∃ w, exec i s = .next { s with sweep := some w })
       ∨ (c = .linkWrite ∧ ∃ contents l, exec i s = .next { reply c f .ok contents s with link := l })) ∧
  (∀ (f : Frame) (s : State) (st : Station), linkFate f s = .toDirector st →
     (∀ sample rejects, readQaResult f.body = some (sample, rejects) → rejects ≤ sample → st.role ≠ .qa →
       exec (.qaResult f) s = .next (answer (askerOf f) [11] .authority [] s)) ∧
     (f.body = [] → st.role ≠ .dock →
       exec (.shipRequest f) s = .next (answer (askerOf f) [12] .authority [] s)))

/-- An answer, to whichever request, goes out on the port the request came by, to its source, with its tag and lot
identifier, and a body of the request's names, the code's byte and the contents; a director command is named by 13 and its
command byte. A notice goes to the notice station alone, on the port the station table gives it and else the floor port,
and is not sent while that station is absent (R182, R186, R187). Where a command leaves both transmit queues room, it sends
the notice of every event it makes: LOT_STATE and CELL_STATE with the new state, HOLD_PLACED, HOLD_REMOVED, LOAD_OUTCOME,
CORR_OUTCOME, SITE_DISABLED, RELEASED and SHIPPED; and a cell's tester and handler are sent the START, RESUME, RETEST,
STOP, UNLOAD or CORRELATE, and the file server the PROGRAM_FETCH, that a change asks for (R3, R39, R49, R51, R52, R72, R86,
R91, R110, R128, R132, R145, R146, R150, R151, R162, R170, R174; of a withdrawal R15). Of these bytes the model chose the
order of some (log 25), the placed time in the HOLD_PLACED notice of an overflow flag, which is the present floor time
(log 31; R145 and R146 give it none), the lot in the headers of LOAD_OUTCOME and SITE_DISABLED (log 38), and the zero
bytes that stand for the last cell in a withdrawal's LOT_STATE (log 39). -/
def Obligations.AnswersAndNoticesCarryTheirFields : Prop :=
  (∀ (a : Asker) (names : List Byte) (code : AnswerCode) (contents : List Byte) (s : State),
     let body := names ++ [BitVec.ofNat 8 (answerCode code)] ++ contents
     let payload := [2, 21] ++ wordBytes a.addr ++ wordBytes s.link.own ++ [0, 1] ++ wordBytes a.tag
       ++ a.lot.toList ++ wordBytes (BitVec.ofNat 16 body.length) ++ body
     answer a names code contents s =
       setPort a.port { getPort s a.port with
         tx := if (getPort s a.port).tx.length < 256 then (getPort s a.port).tx ++ [⟨s.link.frameType, payload⟩]
               else (getPort s a.port).tx
         handed := (getPort s a.port).handed + 1 } s) ∧
  (∀ (c : Command) (f : Frame) (code : AnswerCode) (contents : List Byte) (s : State),
     askerOf f = ⟨f.port, f.hdr.src, f.hdr.tag, f.hdr.lot⟩ ∧
     reply c f code contents s = answer (askerOf f) [13, BitVec.ofNat 8 (commandCode c)] code contents s) ∧
  (∀ (k : NoticeKind) (lot : LotIdent) (contents : List Byte) (s : State),
     (s.link.notice = none → notice k lot contents s = s) ∧
     (∀ a p, s.link.notice = some a → (match stationAt s a with | some st => st.side | none => .floor) = p →
       (getPort s p).tx.length < 256 →
       ∃ level, notice k lot contents s =
         setPort p { getPort s p with
           tx := (getPort s p).tx ++ [⟨s.link.frameType, [2, 22] ++ wordBytes a ++ wordBytes s.link.own ++ [level, 1, 0, 0]
             ++ lot.toList ++ wordBytes (BitVec.ofNat 16 (1 + contents.length))
             ++ [BitVec.ofNat 8 (noticeCode k)] ++ contents⟩]
           handed := (getPort s p).handed + 1 } s)) ∧
  (∀ (i : Instr) (s t : State), exec i s = .next t → (∀ strap, i ≠ .coldReset strap) → pairsKept s → recordsKept s →
     (∀ p, (getPort t p).tx.length < 256) →
     changesNoticed s t ∧ lotCommanded s t ∧ cellCommanded s t ∧ holdsNoticed i s t ∧ releasesNoticed i s t
       ∧ workNoticed i s t)

/-! ## Resets and settings -/

/-- What cold reset leaves (R18, R36, R61, R81, R97, R121, R138, R158, R176, R194). That commands still to
arrive and the model's own counts go on is log 4 and log 8. -/
def Obligations.ColdResetEmptiesTheDirector : Prop :=
  ∀ (strap : Addr) (s : State), ∃ t, exec (.coldReset strap) s = .next t ∧
    (∀ i, getLot t i = none) ∧ t.queue = [] ∧ t.nextSeq = 1 ∧ t.seqExhausted = false ∧ t.releaseList = [] ∧
    (∀ i : ProductId, t.products[i] = none) ∧ (∀ i : ProgramIx, t.programs[i] = none) ∧
    (∀ i : PlanId, t.plans[i] = none) ∧ (∀ i : GroupId, t.groups[i] = none) ∧ t.offsets = [] ∧
    (∀ c, let x := getCell t c
      x.tester = none ∧ x.handler = none ∧ x.group = 0 ∧ x.testerClass = 0 ∧ x.kit = 0 ∧ x.siteCount = 1 ∧
      x.mode = .single ∧ x.blockCode = 0 ∧ x.source = .handler ∧ x.state = .offline ∧ x.downReason = none ∧
      x.intent = .none ∧ x.lot = none ∧ x.lastProduct = none ∧ x.loaded = none ∧ x.latch = false ∧ x.latchTime = 0 ∧
      x.reserved = none ∧ x.blockRemaining = 0 ∧ x.blockDeadline = none ∧ x.installed = 1 ∧ x.active = 1 ∧
      (∀ k : Site, x.failRuns[k] = 0) ∧ x.average = 0 ∧ x.soak = 0 ∧ x.sinceCorr = 0 ∧ x.tdDeadline = none ∧
      x.unloadDeadline = none ∧ x.load = none ∧ x.run = none ∧ x.actingFor = none ∧ x.qual = .unqualified) ∧
    t.nextHoldId = 1 ∧ t.sweep = none ∧ (∀ i : StationIx, t.stations[i] = none) ∧
    t.link.own = (if strap = 0 ∨ strap = 65535 then 65534 else strap) ∧ t.link.frameType = 0x9A41 ∧
    t.link.notice = none ∧ t.link.aging = 0 ∧ t.counters = ⟨0, 0, 0, 0, 0, 0⟩ ∧ t.mono = 0 ∧ t.offset = 0 ∧
    t.mode = .commissioning ∧ (∀ p, (getPort t p).rx = [] ∧ (getPort t p).tx = []) ∧ t.strap = strap ∧
    t.pending = s.pending

/-- What WARM_RESET keeps and what it does to each cell (R19, R37, R62, R83, R98, R139, R159, R177, R195). -/
def Obligations.WarmResetKeepsTheTables : Prop :=
  ∀ (f : Frame) (s : State), authorised 0 f s → f.body = [] →
    ∃ t, exec (.warmReset f) s = .next t ∧ t.sweep = none ∧ Steady { s with sweep := none } t ∧ sameHolds s t ∧
      (∀ i l, getLot s i = some l → ∃ m, getLot t i = some m ∧ m.ident = l.ident ∧ m.product = l.product ∧
        m.priority = l.priority ∧ m.pass = l.pass ∧ m.bins = l.bins ∧ m.pool = l.pool ∧ m.tested = l.tested ∧
        m.lastTd = l.lastTd ∧ m.holds = l.holds ∧ m.overflow = l.overflow ∧ m.recon = l.recon ∧ m.qa = l.qa ∧
        m.releaseTime = l.releaseTime) ∧
      (∀ i, getLot s i = none → getLot t i = none) ∧
      (∀ c, let x := getCell s c; let y := getCell t c
        y.latch = false ∧ y.latchTime = 0 ∧ y.qual = x.qual ∧ y.average = x.average ∧ y.soak = x.soak ∧
        y.active = x.active ∧ y.failRuns = x.failRuns ∧ y.lastProduct = x.lastProduct ∧
        (x.state = .offline ∨ x.state = .paused ∨ x.state = .down →
          y = { x with latch := false, latchTime := 0 }) ∧
        (x.state = .running ∨ x.state = .stalled ∨ x.state = .stopping → cellLot s c ≠ none →
          y.state = .paused ∧ y.intent = .none ∧ y.tdDeadline = none ∧ y.lot = x.lot) ∧
        (x.state = .unloading → y.state = .unloading ∧
          y.unloadDeadline = some (s.mono + (groupOf s c).unloadTimeout)) ∧
        (x.state = .loading → y.load = none ∧ y.loaded = none ∧
          (x.qual ≠ .due ∧ x.qual ≠ .suspect → y.state = .idle)) ∧
        (x.state = .correlating ∨ x.state = .loading ∧ (x.qual = .due ∨ x.qual = .suspect) →
          y.state = .correlating ∧ y.run = some ⟨[], s.mono + (groupOf s c).corrTimeout⟩) ∧
        (x.state = .idle → y.state = .idle ∧ (x.reserved ≠ none →
          y.blockDeadline = if (groupOf s c).blockWait = 0 then none else some (s.mono + (groupOf s c).blockWait))))

/-- Each setting of the director is changed only by the commands that name it. -/
def Obligations.SettingsChangeOnlyByTheirCommands : Prop :=
  ∀ (i : Instr) (s t : State), exec i s = .next t → (∀ strap, i ≠ .coldReset strap) →
    t.strap = s.strap ∧ t.mono = s.mono ∧ t.pending = s.pending ∧
    ((∀ f, i ≠ .stationWrite f ∧ i ≠ .stationDelete f) → t.stations = s.stations) ∧
    ((∀ f, i ≠ .linkWrite f) → t.link = s.link) ∧
    ((∀ f, i ≠ .timeSet f) → t.offset = s.offset) ∧
    ((∀ f, i ≠ .commissionEnd f) → t.mode = s.mode) ∧
    ((∀ f, i ≠ .lotEnter f) → t.nextSeq = s.nextSeq ∧ t.seqExhausted = s.seqExhausted) ∧
    ((∀ f, i ≠ .lotEnter f ∧ i ≠ .lotWithdraw f ∧ i ≠ .shipRequest f ∧ i ≠ .productWrite f ∧ i ≠ .productDelete f) →
      t.products = s.products) ∧
    ((∀ f, i ≠ .programWrite f ∧ i ≠ .programDelete f) → t.programs = s.programs) ∧
    ((∀ f, i ≠ .planWrite f) → t.plans = s.plans) ∧
    ((∀ f, i ≠ .groupWrite f ∧ i ≠ .goldenWrite f) → t.groups = s.groups) ∧
    ((∀ f, i ≠ .offsetWrite f ∧ i ≠ .productDelete f) → t.offsets = s.offsets) ∧
    ((∀ f, i ≠ .holdSweep f ∧ i ≠ .warmReset f) → i ≠ .sweepStep → t.sweep = s.sweep)

/-! ## Invariants -/

/-- Every invariant of the state holds right after reset. -/
def Obligations.ResetMeetsEveryInvariant : Prop :=
  pairsKept State.reset ∧ queueOrdered State.reset ∧ recordsKept State.reset ∧ unitsKept State.reset ∧
    holdsKept State.reset ∧ tablesKept State.reset ∧ cellsKept State.reset ∧ sitesKept State.reset ∧ linkKept State.reset

/-- Lots, cells, queue and release list agree, a lot's state is one its holds allow, and a cell's load and run records and
unload deadline go with its state: no step breaks that; and no step breaks the order of the dispatch queue, by class and
within a class by entry sequence (R4, R6, R84, R149, R171, Table 1-2). -/
def Obligations.EveryStepKeepsLotsAndCellsPaired : Prop :=
  (∀ s t : State, pairsKept s → step s = .next t → pairsKept t) ∧
  (∀ s t : State, pairsKept s → recordsKept s → queueOrdered s → step s = .next t → queueOrdered t)

/-- Lot identifiers and entry sequences stay distinct, and each product's in-use count is the number of its lots: no step
breaks that (R2, R24). -/
def Obligations.EveryStepKeepsTheLotRecords : Prop :=
  ∀ s t : State, recordsKept s → step s = .next t → recordsKept t

/-- The law of units: no step breaks it (R108). -/
def Obligations.EveryStepKeepsTheUnits : Prop :=
  ∀ s t : State, unitsKept s → step s = .next t → unitsKept t

/-- The laws of hold lists, hold ids and the kinds of automatic holds: no step breaks them (R140, R141, Table 8-2). -/
def Obligations.EveryStepKeepsTheHoldLists : Prop :=
  ∀ s t : State, holdsKept s → step s = .next t → holdsKept t

/-- Stored table values stay in their ranges, and what the tables name stays defined, once each (Chapter 2, Tables 2-2 and
2-5). That a standby stays a configured cell of its group rests on log 18. -/
def Obligations.EveryStepKeepsTheTables : Prop :=
  ∀ s t : State, tablesKept s → step s = .next t → tablesKept t

/-- Masks, counts, averages and latches of cells stay in their ranges; and the law of sites: a RUNNING cell keeps as many
active sites as its lot's product asks for, in every state that any step reaches from one that keeps it (R46, R63, R109,
R113, R115, R116, R125). -/
def Obligations.EveryStepKeepsTheCells : Prop :=
  (∀ s t : State, tablesKept s → cellsKept s → step s = .next t → cellsKept t) ∧
  (∀ s t : State, pairsKept s → recordsKept s → sitesKept s → step s = .next t → sitesKept t)

/-- Ports, counters, link configuration and station table stay legal, and an operating director always knows a
station of role FLOOR at level 0 (R178, R183, R184, R188, R189, R193). -/
def Obligations.EveryStepKeepsTheLink : Prop :=
  ∀ s t : State, linkKept s → step s = .next t → linkKept t

/-- A hold leaves a lot's list only at a release whose effective level is no weaker than the hold's level, by
HOLD_RELEASE or by a sweep that captured such a level; and a lot record that carries a hold is freed only by a
LOT_WITHDRAW of such a level, by a granted SHIP_REQUEST, or by cold reset (R150, R153, R155, R15). -/
def Obligations.OnlySufficientAuthorityLiftsAHold : Prop :=
  ∀ (i : Instr) (s t : State) (j : SlotId) (l : Lot) (h : Hold),
    exec i s = .next t → getLot s j = some l → h ∈ l.holds →
    (∀ m, getLot t j = some m → h ∉ m.holds →
      (∃ f, (i = .holdRelease f ∨ i = .holdReleaseOverflow f) ∧ levelOf f s ≤ h.level)
        ∨ (i = .sweepStep ∧ ∃ w, s.sweep = some w ∧ w.captured ≤ h.level)) ∧
    (getLot t j = none →
      (∃ f, i = .lotWithdraw f ∧ levelOf f s ≤ h.level) ∨ (∃ f, i = .shipRequest f) ∨ ∃ strap, i = .coldReset strap)

/-! ## Lots and the queue -/

/-- LOT_ENTER makes the record of R10 in the lowest-numbered free slot, counts it in its product, and gives it
the next entry sequence (R1, R2, R10, R24); it is refused MALFORMED, UNKNOWN_PRODUCT, DUPLICATE or FULL in that
order (R9). -/
def Obligations.LotEntryMakesTheRecord : Prop :=
  (∀ (f : Frame) (s : State) (b : LotEnterBody), authorised 2 f s → readLotEnter f.body = some b →
    let refused := fun code => exec (.lotEnter f) s = .next (reply .lotEnter f code [] s)
    let printed := ∀ k : Fin 16, 32 ≤ f.hdr.lot[k].toNat ∧ f.hdr.lot[k].toNat ≤ 126
    let taken := ∃ j m, getLot s j = some m ∧ m.ident = f.hdr.lot
    (¬ printed ∨ b.qty = 0 → refused .malformed) ∧
    (printed → b.qty ≠ 0 →
      ((∀ (p : ProductId) e, s.products[p] = some e → e.ident ≠ b.product) → refused .unknownProduct) ∧
      (∀ (p : ProductId) e, s.products[p] = some e → e.ident = b.product →
        (taken → refused .duplicate) ∧
        (¬ taken → (∀ j, getLot s j ≠ none) ∨ s.seqExhausted = true → refused .full)))) ∧
  ∀ (f : Frame) (s : State) (b : LotEnterBody) (p : ProductId) (e : Product) (i : SlotId),
    authorised 2 f s → readLotEnter f.body = some b → identPrintable f.hdr.lot = true → b.qty ≠ 0 →
    findProduct s b.product = some p → s.products[p] = some e → (∀ j m, getLot s j = some m → m.ident ≠ f.hdr.lot) →
    getLot s i = none → (∀ j, j < i → getLot s j ≠ none) → s.seqExhausted = false →
    ∃ t l, exec (.lotEnter f) s = .next t ∧ getLot t i = some l ∧
      l.ident = f.hdr.lot ∧ l.product = p ∧ l.startQty = b.qty ∧ l.priority.val = min b.byte 3 ∧
      l.entrySeq = s.nextSeq ∧ l.entryTime = floorTime s ∧ l.queueTime = floorTime s ∧
      l.lastPromotion = floorTime s ∧ l.agingStart = s.mono ∧ l.lastCell = none ∧ l.pass = 0 ∧
      (∀ k : Bin, l.bins[k] = 0) ∧ l.pool = 0 ∧ l.tested = 0 ∧ l.lastTd = 0 ∧ l.holds = [] ∧ l.overflow = false ∧
      l.recon = none ∧ l.qa = none ∧ l.releaseTime = none ∧
      (noneWaits s → l.state = .queued ∧ l.cell = none ∧ i ∈ t.queue ∧ t.cells = s.cells) ∧
      otherLots i s t ∧ t.products = s.products.set p (some { e with inUse := e.inUse + 1 }) ∧
      (if s.nextSeq = 4294967295 then t.nextSeq = s.nextSeq ∧ t.seqExhausted = true
       else t.nextSeq = s.nextSeq + 1 ∧ t.seqExhausted = false) ∧
      sameHolds s t ∧ t.stations = s.stations ∧ t.counters = s.counters ∧ t.mono = s.mono

/-- A taken LOT_PRIORITY sets the class in any lot state, an aging expiry raises it by one, and both restamp the lot and
move a QUEUED one to its place (R12, R13); a lot put into a queue in class and entry order stands in that order with
the others (R6). An expiry before its deadline does nothing (log 2), and that the answer carries the class in two bytes is
log 25: both are the model's choices. -/
def Obligations.ClassChangesMoveALot : Prop :=
  ((∀ (f : Frame) (s : State) (byte : Nat) (i : SlotId) (l : Lot),
     authorised 2 f s → readLotPriority f.body = some byte → findLot s f.hdr.lot = some i → getLot s i = some l →
     (∃ t m, exec (.lotPriority f) s = .next t ∧ getLot t i = some m ∧ m.priority.val = min byte 3 ∧
       m.lastPromotion = floorTime s ∧ m.agingStart = s.mono ∧ otherLots i s t) ∧
     (l.state ≠ .queued ∨ noneWaits s →
       exec (.lotPriority f) s =
         .next (reply .lotPriority f .ok (num 2 (min byte 3)) (reclassed i (clampClass byte) l s)))) ∧
   (∀ (s : State) (i : SlotId) (l : Lot), getLot s i = some l → l.state = .queued → l.priority < 3 →
     s.link.aging ≠ 0 → l.agingStart + s.link.aging ≤ s.mono →
     (∃ t m, exec (.agingExpiry i) s = .next t ∧ getLot t i = some m ∧ m.priority.val = l.priority.val + 1 ∧
       m.lastPromotion = floorTime s ∧ m.agingStart = s.mono ∧ otherLots i s t) ∧
     (noneWaits s → exec (.agingExpiry i) s = .next (reclassed i (l.priority + 1) l s))) ∧
   (∀ (s : State) (i : SlotId),
     (∀ l, getLot s i = some l → l.state ≠ .queued ∨ l.priority = 3 ∨ s.link.aging = 0
       ∨ s.mono < l.agingStart + s.link.aging) →
     exec (.agingExpiry i) s = .next s)) ∧
  (∀ (s : State) (i : SlotId) (l : Lot) (q : List SlotId),
     let ordered := fun xs : List SlotId => xs.Pairwise fun a b =>
       ∀ m n, getLot s a = some m → getLot s b = some n →
         n.priority < m.priority ∨ (m.priority = n.priority ∧ m.entrySeq < n.entrySeq)
     getLot s i = some l → (∀ j ∈ q, ∃ m, getLot s j = some m ∧ (m.priority = l.priority → m.entrySeq ≠ l.entrySeq)) →
     ordered q → (insertLot s i l q).Perm (i :: q) ∧ ordered (insertLot s i l q))

/-- The withdrawal of a lot off any cell: refused AUTHORITY unless the effective level is no weaker than every
hold's and is 0 where the overflow flag is set; else the record is freed with its holds and no hold notice is
sent (R14, R15, R153). That the answer is handed on after the LOT_STATE notice is the model's inference from R186
(log 32). -/
def Obligations.WithdrawalMeetsTheInterlock : Prop :=
  ∀ (f : Frame) (s : State) (i : SlotId) (l : Lot),
    authorised 1 f s → f.body = [] → findLot s f.hdr.lot = some i → getLot s i = some l →
    ((l.state = .assigned ∨ l.state = .testing ∨ l.state = .stopping ∨ l.state = .paused ∨ l.state = .unloading) →
      exec (.lotWithdraw f) s = .next (reply .lotWithdraw f .badState [] s)) ∧
    ((l.state = .queued ∨ l.state = .held ∨ l.state = .tested ∨ l.state = .released ∨ l.state = .empty) →
      ((∃ h ∈ l.holds, h.level < levelOf f s) ∨ (l.overflow = true ∧ levelOf f s ≠ 0) →
        exec (.lotWithdraw f) s = .next (reply .lotWithdraw f .authority [] s)) ∧
      ((∀ h ∈ l.holds, levelOf f s ≤ h.level) → (l.overflow = true → levelOf f s = 0) →
        ∀ e, s.products[l.product] = some e →
        exec (.lotWithdraw f) s = .next (reply .lotWithdraw f .ok []
          { lotStateNotice i l.ident (some l.state) none none none s with
            lots := s.lots.set i none
            queue := s.queue.erase i
            releaseList := s.releaseList.erase i
            products := s.products.set l.product (some { e with inUse := e.inUse - 1 }) })))

/-- The reading commands answer what stands, and change nothing but the answer's port; QUEUE_READ answers the numbers of
queue entries and of lot records, and the entries from the start position on, in queue order (R16, R17, R35, R60,
R189). That a QUEUE_READ body of another length than its two fields need is answered MALFORMED is log 11, the model's
choice, as are LOT_QUERY's body, log 22, the layout of the answers, log 25, and the form of an empty entry in the answers
of STATION_READ and TABLE_READ, log 39. -/
def Obligations.ReadsReportAndChangeNothing : Prop :=
  (∀ (f : Frame) (s : State), authorised 3 f s →
     (f.body.length ≠ 4 → exec (.queueRead f) s = .next (reply .queueRead f .malformed [] s)) ∧
     (∀ start n, start < 65536 → n < 65536 → f.body = num 2 start ++ num 2 n →
       (n = 0 ∨ 64 < n ∨ 255 < start → exec (.queueRead f) s = .next (reply .queueRead f .malformed [] s)) ∧
       (1 ≤ n → n ≤ 64 → start ≤ 255 →
         exec (.queueRead f) s = .next (reply .queueRead f .ok
           (num 2 s.queue.length ++ num 2 ((List.finRange 256).filter fun i => (getLot s i).isSome).length
             ++ listOf (fun q : SlotId × Lot => q.2.ident.toList ++ num 2 q.1.val ++ num 2 q.2.priority.val ++ num 4 q.2.entrySeq)
                 (((s.queue.drop start).take n).filterMap fun i => (getLot s i).map fun l => (i, l))) s)))) ∧
  (∀ (f : Frame) (s : State), authorised 3 f s →
     (∀ slot i l, readLotQuery f.body = some slot →
       (f.hdr.lot = noLot ∧ slot = i.val ∨ f.hdr.lot ≠ noLot ∧ findLot s f.hdr.lot = some i) → getLot s i = some l →
       exec (.lotQuery f) s = .next (reply .lotQuery f .ok (lotBytes s i l) s)) ∧
     (∀ slot, readLotQuery f.body = some slot → f.hdr.lot = noLot → 255 < slot →
       exec (.lotQuery f) s = .next (reply .lotQuery f .malformed [] s)) ∧
     (∀ slot, readLotQuery f.body = some slot → f.hdr.lot ≠ noLot →
       (∀ j m, getLot s j = some m → m.ident ≠ f.hdr.lot) →
       exec (.lotQuery f) s = .next (reply .lotQuery f .unknownLot [] s)) ∧
     (∀ c : CellId, f.body = num 2 c.val →
       exec (.cellQuery f) s = .next (reply .cellQuery f .ok (cellBytes s c) s)) ∧
     (∀ e, readTableRead f.body = some e →
       exec (.tableRead f) s = .next (reply .tableRead f (tableContents s e).1 (tableContents s e).2 s)) ∧
     (∀ i : StationIx, f.body = num 2 i.val →
       exec (.stationRead f) s = .next (reply .stationRead f .ok (opt 9 stationBytes s.stations[i]) s)) ∧
     (f.body = [] →
       exec (.linkRead f) s = .next (reply .linkRead f .ok
         (linkBytes s.link ++ [if s.mode = .commissioning then 1 else 2] ++ num 6 s.mono
           ++ num 4 ((s.mono + s.offset) % 2 ^ 32)) s)))

/-! ## Dispatch -/

/-- A cell chooses, among the eligible lots of the queue, one that no other precedes by class, affinity (the lot's last cell
is this cell, or the cell this standby acts for), program (the product's is the one loaded) and entry
sequence, and chooses none only where none is eligible (R68, R69); a lot that becomes available goes to the waiting cell
for which it is eligible with the earliest latch time, the lowest-numbered among equals, and stays where there is none
(R70). -/
def Obligations.ChoicesFollowTheirKeys : Prop :=
  (∀ (s : State) (c : CellId) (also : Lot → Bool),
     let fits := fun i l => i ∈ s.queue ∧ getLot s i = some l ∧ also l = true ∧
       (productOf s l).testerClass = (getCell s c).testerClass ∧ (productOf s l).kit = (getCell s c).kit ∧
       (productOf s l).minActive ≤ size (getCell s c).active ∧
       ((getCell s c).reserved = none ∨ (getCell s c).reserved = some l.product)
     let near := fun l : Lot => l.lastCell = some c
       ∨ ((groupOf s c).standby = some c ∧ ∃ d, (getCell s c).actingFor = some d ∧ l.lastCell = some d)
     let ready := fun l : Lot => (getCell s c).loaded = some (productOf s l).program
     (∀ i, choose s c also = some i → ∃ l, fits i l ∧
       ∀ j m, fits j m →
         m.priority < l.priority ∨ m.priority = l.priority ∧
           ((near l ∧ ¬ near m) ∨ (near l ↔ near m) ∧
             ((ready l ∧ ¬ ready m) ∨ (ready l ↔ ready m) ∧ l.entrySeq ≤ m.entrySeq))) ∧
     (choose s c also = none → ∀ i l, ¬ fits i l)) ∧
  (∀ (s : State) (i : SlotId) (l : Lot), getLot s i = some l →
     let may := fun c => ((getCell s c).state = .idle ∧ (getCell s c).latch = true ∧
         ((groupOf s c).standby ≠ some c ∨ (getCell s c).actingFor ≠ none)) ∧
       (productOf s l).testerClass = (getCell s c).testerClass ∧ (productOf s l).kit = (getCell s c).kit ∧
       (productOf s l).minActive ≤ size (getCell s c).active ∧
       ((getCell s c).reserved = none ∨ (getCell s c).reserved = some l.product)
     ((∀ c, ¬ may c) → offer i s = s) ∧
     (∀ c, may c →
       (∀ d, may d → (getCell s c).latchTime < (getCell s d).latchTime
         ∨ (getCell s c).latchTime = (getCell s d).latchTime ∧ c ≤ d) →
       assigned i c s (offer i s)))

/-- A lot that is started: it is TESTING with touchdown numbering from 0, its cell RUNNING with no intent and
a touchdown deadline, a block reservation set or counted, and a cell of another last product seeded; a lot
whose program the cell lacks begins a load instead (R55, R71, R72, R77, R85, R86, R114). -/
def Obligations.AssignmentStartsOrLoads : Prop :=
  ∀ (s : State) (i : SlotId) (c : CellId) (l : Lot), getLot s i = some l →
    let p := productOf s l
    let x := getCell s c
    let y := getCell (assign i c s) c
    assigned i c s (assign i c s) ∧
    (x.loaded = some p.program →
      y.intent = .none ∧ y.tdDeadline = some (s.mono + p.tdTimeout) ∧ y.loaded = x.loaded ∧
      (∃ m, getLot (assign i c s) i = some m ∧ m.lastTd = 0 ∧ m.pass = l.pass) ∧
      (x.mode ≠ .block → y.reserved = x.reserved ∧ y.blockRemaining = x.blockRemaining) ∧
      (x.mode = .block → x.reserved = none → y.reserved = some l.product ∧ y.blockRemaining = x.blockCode.val) ∧
      (x.mode = .block → x.reserved ≠ none → y.reserved = x.reserved ∧ y.blockRemaining = x.blockRemaining - 1) ∧
      (x.lastProduct = some l.product → y.average = x.average ∧ y.soak = x.soak ∧ y.qual = x.qual) ∧
      (x.lastProduct ≠ some l.product →
        y.lastProduct = some l.product ∧ y.average = 256 * p.expectedYield ∧
        y.soak = 2 ^ ((groupOf s c).iirCode + 2) ∧ y.qual = if x.qual = .qualified then .soaking else x.qual)) ∧
    (x.loaded ≠ some p.program →
      y.loaded = none ∧
      y.load = some ⟨p.program, (segmentsOf s p.program).getD 0, 0, 1, s.mono + (groupOf s c).loadTimeout, some i⟩)

/-- A taken WORK_REQUEST or ASSIGN_NEXT latches the cell's request at the present time where the cell has no
lot to choose, and assigns the chosen lot where it has one; an IDLE cell that may not ask is refused (R64, R65). That the
answer of ASSIGN_NEXT carries its lot as an optional field, with a presence byte, is log 39, the model's choice. -/
def Obligations.RequestsForWorkLatchOrAssign : Prop :=
  ∀ (f : Frame) (s : State) (c : CellId),
    let x := getCell s c
    let free := isStandby s c = false ∨ x.actingFor ≠ none
    (fromEquipment .handler 0 f s c →
      (x.state = .idle → free → x.source ≠ .floor →
        (choose s c (fun _ => true) = none → exec (.workRequest f) s =
          .next (setCell c (if x.latch then x else { x with latch := true, latchTime := s.mono }) s)) ∧
        (∀ i, choose s c (fun _ => true) = some i → ∃ t, exec (.workRequest f) s = .next t ∧ assigned i c s t)) ∧
      (x.state ≠ .idle ∨ ¬ free ∨ x.source = .floor → exec (.workRequest f) s = .next (count .badState s))) ∧
    (authorised 2 f s → f.body = num 2 c.val →
      (x.state = .idle → free → x.source ≠ .handler →
        (choose s c (fun _ => true) = none → exec (.assignNext f) s =
          .next (reply .assignNext f .ok ([2] ++ opt 16 (fun q : SlotId × Lot => q.2.ident.toList) (cellLot s c))
            (setCell c (if x.latch then x else { x with latch := true, latchTime := s.mono }) s))) ∧
        (∀ i, choose s c (fun _ => true) = some i → ∃ t, exec (.assignNext f) s = .next t ∧ assigned i c s t)) ∧
      (x.state ≠ .idle ∨ ¬ free ∨ x.source = .handler →
        exec (.assignNext f) s = .next (reply .assignNext f .badState [] s)))

/-- REQUEST_CLEAR takes a cell out of the waiting cells and leaves its reservation and block wait standing; the
expiry of that wait clears the reservation of a cell that does not wait and chooses nothing (R66). -/
def Obligations.RequestClearKeepsTheReservation : Prop :=
  (∀ (f : Frame) (s : State), authorised 2 f s →
    (∀ n, 31 < n → n < 65536 → f.body = num 2 n →
      exec (.requestClear f) s = .next (reply .requestClear f .malformed [] s)) ∧
    (∀ c : CellId, f.body = num 2 c.val →
      ((getCell s c).latch = false → exec (.requestClear f) s = .next (reply .requestClear f .badState [] s)) ∧
      ((getCell s c).latch = true →
        exec (.requestClear f) s = .next (reply .requestClear f .ok []
          (setCell c { getCell s c with latch := false, latchTime := 0 } s)) ∧
        ∀ t, exec (.requestClear f) s = .next t → waiting t c = false))) ∧
  (∀ (s : State) (c : CellId) (d : Nat), (getCell s c).blockDeadline = some d → d ≤ s.mono →
    (getCell s c).latch = false →
    exec (.blockWaitExpiry c) s =
      .next (setCell c { getCell s c with reserved := none, blockRemaining := 0, blockDeadline := none } s))

/-- BLOCK_END and the expiry of the block wait end a reservation, and a waiting cell chooses at once among all
eligible lots (R76, R79, R80). An expiry before its deadline does nothing (log 2). -/
def Obligations.BlocksEndByCommandOrExpiry : Prop :=
  ∀ (s : State) (c : CellId),
    let x := getCell s c
    let freed := setCell c { x with reserved := none, blockRemaining := 0, blockDeadline := none } s
    (∀ f : Frame, authorised 1 f s → f.body = num 2 c.val →
      (x.reserved = none → exec (.cellSetBlockEnd f) s = .next (reply .cellSet f .badState [] s)) ∧
      (x.reserved ≠ none →
        (waiting s c = false ∨ choose freed c (fun _ => true) = none → exec (.cellSetBlockEnd f) s =
          .next (reply .cellSet f .ok [BitVec.ofNat 8 (cellStateCode x.state)] freed)) ∧
        (∀ i, waiting s c = true → choose freed c (fun _ => true) = some i →
          ∃ t, exec (.cellSetBlockEnd f) s = .next t ∧ assigned i c freed t))) ∧
    ((∀ d, x.blockDeadline = some d → s.mono < d) → exec (.blockWaitExpiry c) s = .next s) ∧
    (∀ d, x.blockDeadline = some d → d ≤ s.mono →
      (waiting s c = false ∨ choose freed c (fun _ => true) = none → exec (.blockWaitExpiry c) s = .next freed) ∧
      (∀ i, waiting s c = true → choose freed c (fun _ => true) = some i →
        ∃ t, exec (.blockWaitExpiry c) s = .next t ∧ assigned i c freed t))

/-! ## Configuration tables -/

/-- A PRODUCT_WRITE is refused MALFORMED, IN_USE, DUPLICATE or UNKNOWN_PROGRAM, in that order. A taken one stores the entry with every value brought into its range, those within it kept, and pass bins
dropped from the retest bins and the bin limits; where it replaces an entry, cells forget the index as last product and
reservation. A taken PRODUCT_DELETE empties the entry, takes its offsets out of the map, and cells forget the index; an
entry in use or empty refuses it (Table 2-2, R20 to R23). -/
def Obligations.ProductCommandsChangeTheEntry : Prop :=
  (∀ (f : Frame) (s : State), authorised 0 f s →
     let refused := fun code => exec (.productWrite f) s = .next (reply .productWrite f code [] s)
     (readProductWrite f.body = none → refused .malformed) ∧
     (∀ (i : ProductId) (p : Product), readProductWrite f.body = some (i, p) →
       let bad := (∃ k : Fin 12, p.ident[k].toNat < 32 ∨ 126 < p.ident[k].toNat) ∨ p.passBins = 0
         ∨ inSet p.passBins 0 = true ∨ s.plans[p.plan] = none
       let used := ∃ e, s.products[i] = some e ∧ 0 < e.inUse
       let doubled := ∃ (j : ProductId) (e : Product), j ≠ i ∧ s.products[j] = some e ∧ e.ident = p.ident
       let known := ∃ (k : ProgramIx) (q : Program), s.programs[k] = some q ∧ q.name = p.program
       (bad → refused .malformed) ∧ (¬ bad → used → refused .inUse) ∧ (¬ bad → ¬ used → doubled → refused .duplicate) ∧
       (¬ bad → ¬ used → ¬ doubled → ¬ known → refused .unknownProgram))) ∧
  (∀ (f : Frame) (s : State), authorised 0 f s → (∀ i : ProductId, f.body ≠ num 2 i.val) →
     exec (.productDelete f) s = .next (reply .productDelete f .malformed [] s)) ∧
  (∀ (f : Frame) (s : State) (i : ProductId) (p : Product),
     authorised 0 f s → readProductWrite f.body = some (i, p) →
     identPrintable p.ident = true → p.passBins ≠ 0 → inSet p.passBins 0 = false → s.plans[p.plan] ≠ none →
     (∀ e, s.products[i] = some e → e.inUse = 0) → (∀ (j : ProductId) e, j ≠ i → s.products[j] = some e → e.ident ≠ p.ident) →
     findProgram s p.program ≠ none →
     (∃ t, exec (.productWrite f) s = .next t ∧ t.products = s.products.set i (some (storedProduct p)) ∧
       t.offsets = s.offsets ∧ t.groups = s.groups ∧ t.counters = s.counters ∧ sameHolds s t) ∧
     (noneWaits s → ∃ t, exec (.productWrite f) s = .next (reply .productWrite f .ok (productBytes (storedProduct p)) t) ∧
       t = { s with products := s.products.set i (some (storedProduct p)), cells := t.cells } ∧
       ∀ c, getCell t c = if s.products[i] = none then getCell s c else withoutProduct i (getCell s c))) ∧
  (∀ p : Product,
     let q := storedProduct p
     q.ident = p.ident ∧ q.program = p.program ∧ q.testerClass = p.testerClass ∧ q.kit = p.kit ∧
     q.passBins = p.passBins ∧ q.plan = p.plan ∧ q.autoLevels = p.autoLevels ∧ q.lossAllowance = p.lossAllowance ∧
     (∀ k : Bin, inSet q.retestBins k = (inSet p.retestBins k && !inSet p.passBins k)) ∧
     (∀ k : Bin, q.binLimits[k] = if inSet p.passBins k = true then none else p.binLimits[k].map (min · 10000)) ∧
     q.maxRetest = min p.maxRetest 2 ∧ q.minSample = max 1 (min p.minSample 65535) ∧
     q.yieldFloor = min p.yieldFloor 10000 ∧ q.expectedYield = min p.expectedYield 10000 ∧
     q.driftFloor = min p.driftFloor 10000 ∧
     q.failRunLimit = (if p.failRunLimit = 0 then 0 else max 2 (min p.failRunLimit 31)) ∧
     q.minActive = max 1 (min p.minActive 16) ∧ q.tdTimeout = max 1000 (min p.tdTimeout 600000) ∧ q.inUse = 0) ∧
  (∀ (f : Frame) (s : State) (i : ProductId), authorised 0 f s → f.body = num 2 i.val →
     (s.products[i] = none → exec (.productDelete f) s = .next (reply .productDelete f .unknownProduct [] s)) ∧
     (∀ e, s.products[i] = some e →
       (0 < e.inUse → exec (.productDelete f) s = .next (reply .productDelete f .inUse [] s)) ∧
       (e.inUse = 0 →
         (∃ t, exec (.productDelete f) s = .next t ∧ t.products = s.products.set i none ∧
           t.offsets = s.offsets.filter (fun o => o.product ≠ i) ∧ t.programs = s.programs) ∧
         (noneWaits s → ∃ t,
           exec (.productDelete f) s = .next (reply .productDelete f .ok
             (num 2 (s.offsets.filter fun o => o.product = i).length) t) ∧
           t = { s with products := s.products.set i none, offsets := s.offsets.filter (fun o => o.product ≠ i),
                        cells := t.cells } ∧
           ∀ c, getCell t c = withoutProduct i (getCell s c)))))

/-- PROGRAM_WRITE replaces the entry of the same pair or takes the lowest free index, and PROGRAM_DELETE empties its entry;
a pair that a product names refuses both IN_USE. PLAN_WRITE, GROUP_WRITE and GOLDEN_WRITE are refused MALFORMED, for the
group BAD_STATE, DUPLICATE and BUSY, in the order of their rules, and else store what they carry, clamped where a rule
clamps; a group's newly named standby loses its latch (R20, R25, R26, R27, R29, R31, R32). That PROGRAM_WRITE answers the
index and GOLDEN_WRITE the number of units without the values as stored is log 36, the model's choice; that a standby named
must be a configured cell is log 18, its inference. -/
def Obligations.LibraryPlanAndGroupWritesStoreTheirValues : Prop :=
  (∀ (f : Frame) (s : State), authorised 0 f s →
     (readProgramWrite f.body = none → exec (.programWrite f) s = .next (reply .programWrite f .malformed [] s)) ∧
     (readProgramDelete f.body = none → exec (.programDelete f) s = .next (reply .programDelete f .malformed [] s)) ∧
     (readPlanWrite f.body = none → exec (.planWrite f) s = .next (reply .planWrite f .malformed [] s)) ∧
     (readGroupWrite f.body = none → exec (.groupWrite f) s = .next (reply .groupWrite f .malformed [] s)) ∧
     (readGoldenWrite f.body = none → exec (.goldenWrite f) s = .next (reply .goldenWrite f .malformed [] s))) ∧
  (∀ (f : Frame) (s : State), authorised 0 f s →
     (∀ p : Program, readProgramWrite f.body = some p →
       (identPrintable p.name.ident = false ∨ 255 < p.name.version ∨ p.segments = 0 ∨ 4096 < p.segments →
         exec (.programWrite f) s = .next (reply .programWrite f .malformed [] s)) ∧
       (identPrintable p.name.ident = true → p.name.version ≤ 255 → 1 ≤ p.segments → p.segments ≤ 4096 →
         (∀ i : ProgramIx, findProgram s p.name = some i →
           ((∃ (k : ProductId) (e : Product), s.products[k] = some e ∧ e.program = p.name) →
             exec (.programWrite f) s = .next (reply .programWrite f .inUse [] s)) ∧
           ((∀ (k : ProductId) (e : Product), s.products[k] = some e → e.program ≠ p.name) →
             exec (.programWrite f) s = .next (reply .programWrite f .ok (num 2 i.val)
               { s with programs := s.programs.set i (some p) }))) ∧
         (findProgram s p.name = none →
           ((∀ j : ProgramIx, s.programs[j] ≠ none) →
             exec (.programWrite f) s = .next (reply .programWrite f .full [] s)) ∧
           (∀ i : ProgramIx, s.programs[i] = none → (∀ j : ProgramIx, j < i → s.programs[j] ≠ none) →
             exec (.programWrite f) s = .next (reply .programWrite f .ok (num 2 i.val)
               { s with programs := s.programs.set i (some p) }))))) ∧
     (∀ n : ProgramName, readProgramDelete f.body = some n →
       (findProgram s n = none → exec (.programDelete f) s = .next (reply .programDelete f .unknownProgram [] s)) ∧
       (∀ i : ProgramIx, findProgram s n = some i →
         ((∃ (k : ProductId) (e : Product), s.products[k] = some e ∧ e.program = n) →
           exec (.programDelete f) s = .next (reply .programDelete f .inUse [] s)) ∧
         ((∀ (k : ProductId) (e : Product), s.products[k] = some e → e.program ≠ n) →
           exec (.programDelete f) s = .next (reply .programDelete f .ok []
             { s with programs := s.programs.set i none }))))) ∧
  (∀ (f : Frame) (s : State), authorised 0 f s →
     let badSet := fun golden : List Golden => golden.length < 1 ∨ 16 < golden.length ∨ ∃ u ∈ golden, u.serial = 0
     let doubled := fun golden : List Golden => ¬ golden.Pairwise fun a b => a.serial ≠ b.serial
     let busy := fun i : GroupId =>
       (∃ c, configured (getCell s c) = true ∧ (getCell s c).group = i ∧ (getCell s c).state = .correlating)
       ∨ ∃ old c d, s.groups[i] = some old ∧ old.standby = some c ∧ (getCell s c).actingFor = some d
     (∀ (i : PlanId) (tiers : List Tier), readPlanWrite f.body = some (i, tiers) →
       let bad := tiers.length < 1 ∨ 6 < tiers.length ∨ (∃ t ∈ tiers, t.maxLot = 0 ∨ t.sample = 0)
         ∨ ¬ tiers.Pairwise fun a b => a.maxLot < b.maxLot
       let stored := tiers.map fun t => { t with accept := min t.accept t.sample }
       (bad → exec (.planWrite f) s = .next (reply .planWrite f .malformed [] s)) ∧
       (¬ bad → exec (.planWrite f) s = .next (reply .planWrite f .ok (listOf tierBytes stored)
         { s with plans := s.plans.set i (some stored) }))) ∧
     (∀ (i : GroupId) (g : Group), readGroupWrite f.body = some (i, g) →
       let refused := fun code => exec (.groupWrite f) s = .next (reply .groupWrite f code [] s)
       let bad := (∃ c, g.standby = some c ∧ (configured (getCell s c) = false ∨ (getCell s c).group ≠ i)) ∨ badSet g.golden
       let stored := { g with
         iirCode := max 1 (min g.iirCode 6)
         allowed := min g.allowed 15
         corrTimeout := max 10000 (min g.corrTimeout 7200000)
         loadTimeout := max 1000 (min g.loadTimeout 3600000)
         unloadTimeout := max 1000 (min g.unloadTimeout 3600000)
         loadRetries := min g.loadRetries 3
         blockWait := if g.blockWait = 0 then 0 else max 1000 (min g.blockWait 86400000) }
       let t := { s with groups := s.groups.set i (some stored) }
       (bad → refused .malformed) ∧ (¬ bad → doubled g.golden → refused .duplicate) ∧
       (¬ bad → ¬ doubled g.golden → busy i → refused .busy) ∧
       (¬ bad → ¬ doubled g.golden → ¬ busy i →
         exec (.groupWrite f) s = .next (reply .groupWrite f .ok (groupBytes stored)
           (match g.standby with
            | none => t
            | some c =>
              if (s.groups[i].bind fun old : Group => old.standby) = some c then t
              else setCell c { getCell s c with latch := false, latchTime := 0 } t)))) ∧
     (∀ (i : GroupId) (golden : List Golden), readGoldenWrite f.body = some (i, golden) →
       let refused := fun code => exec (.goldenWrite f) s = .next (reply .goldenWrite f code [] s)
       (badSet golden → refused .malformed) ∧ (¬ badSet golden → s.groups[i] = none → refused .badState) ∧
       (∀ g, s.groups[i] = some g → ¬ badSet golden →
         (doubled golden → refused .duplicate) ∧ (¬ doubled golden → busy i → refused .busy) ∧
         (¬ doubled golden → ¬ busy i →
           exec (.goldenWrite f) s = .next (reply .goldenWrite f .ok (num 2 golden.length)
             { s with groups := s.groups.set i (some { g with golden := golden }) })))))

/-- A taken OFFSET_WRITE sets the offset of its key to the clamped value, leaves every other key's, and adds an
entry only while the map holds fewer than 256 (R33, R34). -/
def Obligations.OffsetWritesSetOneKey : Prop :=
  ∀ (f : Frame) (s : State) (c : CellId) (ident : ProductIdent) (v : Int) (p : ProductId),
    authorised 1 f s → readOffsetWrite f.body = some (c, ident, v) → findProduct s ident = some p →
    let clamped := max (-500) (min v 500)
    let held := ∃ o ∈ s.offsets, o.cell = c ∧ o.product = p
    ((getCell s c).state = .correlating → exec (.offsetWrite f) s = .next (reply .offsetWrite f .busy [] s)) ∧
    ((getCell s c).state ≠ .correlating →
      (clamped ≠ 0 → ¬ held → 256 ≤ s.offsets.length →
        exec (.offsetWrite f) s = .next (reply .offsetWrite f .full [] s)) ∧
      (clamped = 0 ∨ held ∨ s.offsets.length < 256 →
        ∃ t, exec (.offsetWrite f) s =
            .next (reply .offsetWrite f .ok (signed clamped ++ num 2 t.offsets.length) t) ∧
          t = { s with offsets := t.offsets } ∧ offsetOf t c p = clamped ∧
          (∀ d q, (d ≠ c ∨ q ≠ p) → offsetOf t d q = offsetOf s d q)))

/-- The tier for a good-unit count: the first whose max lot size is at least it, and the last where it exceeds
every one (R28). -/
def Obligations.TheTierIsTheFirstLargeEnough : Prop :=
  ∀ (tiers : List Tier) (good : Nat),
    (∀ before t after, tiers = before ++ t :: after → (∀ u ∈ before, u.maxLot < good) → good ≤ t.maxLot →
      tierFor tiers good = some t) ∧
    (∀ before t, tiers = before ++ [t] → (∀ u ∈ tiers, u.maxLot < good) → tierFor tiers good = some t) ∧
    (∀ t after, tiers = t :: after → good = 0 → tierFor tiers good = some t)

/-! ## Cells -/

/-- A taken CONFIGURE stores the fields, sets the masks to the first sites, and makes the cell UNQUALIFIED and
forgets its program where its equipment changes (R41, R42, R46). -/
def Obligations.ConfigureSetsTheCell : Prop :=
  ∀ (f : Frame) (s : State) (q : ConfigureBody), authorised 1 f s → readConfigure f.body = some q →
    let x := getCell s q.cell
    let first := x.tester = none ∨ x.handler = none
    let newTester := first ∨ x.tester ≠ some q.tester ∨ x.testerClass ≠ q.testerClass
    let newEquipment := newTester ∨ x.handler ≠ some q.handler ∨ x.group ≠ q.group ∨ x.kit ≠ q.kit
      ∨ x.siteCount ≠ q.siteCount
    (x.state ≠ .offline → exec (.cellSetConfigure f) s = .next (reply .cellSet f .badState [] s)) ∧
    (x.state = .offline → (isStandby s q.cell = true → q.group = x.group) →
      (∀ d, d ≠ q.cell → (getCell s d).tester ≠ some q.tester ∧ (getCell s d).handler ≠ some q.tester ∧
        (getCell s d).tester ≠ some q.handler ∧ (getCell s d).handler ≠ some q.handler) →
      ∃ t y, exec (.cellSetConfigure f) s = .next t ∧ getCell t q.cell = y ∧ Steady s t ∧ t.lots = s.lots ∧
        t.queue = s.queue ∧
        y.tester = some q.tester ∧ y.handler = some q.handler ∧ y.group = q.group ∧ y.testerClass = q.testerClass ∧
        y.kit = q.kit ∧ y.siteCount = q.siteCount ∧ y.mode = q.mode ∧ y.blockCode = q.blockCode ∧ y.source = q.source ∧
        y.state = .offline ∧
        (∀ k : Site, (inSet y.installed k = true ↔ k.val < q.siteCount) ∧ (inSet y.active k = true ↔ k.val < q.siteCount) ∧
          y.failRuns[k] = 0) ∧
        (newEquipment → y.qual = .unqualified ∧ y.lastProduct = none) ∧
        (¬ newEquipment → y.qual = x.qual ∧ y.lastProduct = x.lastProduct) ∧
        (newTester → y.loaded = none) ∧ (¬ newTester → y.loaded = x.loaded) ∧
        y.average = x.average ∧ y.soak = x.soak ∧ y.sinceCorr = x.sinceCorr ∧
        (q.group = x.group ∨ (∀ d, (getCell s d).actingFor ≠ some q.cell) → otherCells q.cell s t))

/-- ENABLE brings an OFFLINE cell that is QUALIFIED or SOAKING to IDLE and any other to correlation, once its configuration,
group and stations are in order; CORRELATE_NOW starts a correlation on an IDLE cell, raises a QUALIFIED or SOAKING cell
that carries a lot or loads to DUE, and is refused while one runs (that it makes ENABLE's checks on an
OFFLINE or a DOWN cell is log 17). At a correlation start the group's IDLE standby that covers nothing begins to act for
the cell, and chooses a lot or waits (R43, R128, R129, R137). -/
def Obligations.CorrelationStartsAndCovers : Prop :=
  (∀ (f : Frame) (s : State) (c : CellId), authorised 1 f s → f.body = num 2 c.val →
     let x := getCell s c
     let ready := (x.state = .offline ∨ x.state = .down) ∧ configured x = true ∧ s.groups[x.group] ≠ none
     let known := stationServes s x.tester .tester c = true ∧ stationServes s x.handler .handler c = true
     (¬ ready → exec (.cellSetEnable f) s = .next (reply .cellSet f .badState [] s)) ∧
     (ready → ¬ known → exec (.cellSetEnable f) s = .next (reply .cellSet f .unknownStation [] s)) ∧
     (ready → known →
       (x.state = .offline → (x.qual = .qualified ∨ x.qual = .soaking) →
         exec (.cellSetEnable f) s = .next (reply .cellSet f .ok [2] (cellStateNotice c .offline
           (setCell c { x with state := .idle, latch := false, latchTime := 0 } s)))) ∧
       (x.state = .down ∨ (x.qual ≠ .qualified ∧ x.qual ≠ .soaking) →
         ∃ t, exec (.cellSetEnable f) s = .next t ∧ correlating c s t ∧ Steady s t))) ∧
  (∀ (f : Frame) (s : State) (c : CellId), authorised 1 f s → f.body = num 2 c.val →
     let x := getCell s c
     (x.state = .idle → ∃ t, exec (.correlateNow f) s = .next t ∧ correlating c s t ∧ Steady s t) ∧
     (x.state = .correlating → exec (.correlateNow f) s = .next (reply .correlateNow f .badState [] s)) ∧
     (x.state = .loading ∨ x.state = .running ∨ x.state = .stalled ∨ x.state = .stopping ∨ x.state = .paused
         ∨ x.state = .unloading →
       let q := if x.qual = .qualified ∨ x.qual = .soaking then .due else x.qual
       exec (.correlateNow f) s = .next (reply .correlateNow f .ok
         [BitVec.ofNat 8 (cellStateCode x.state), BitVec.ofNat 8 (qualCode q)] (setCell c { x with qual := q } s))) ∧
     (x.state = .offline ∨ x.state = .down →
       (configured x = false ∨ s.groups[x.group] = none →
         exec (.correlateNow f) s = .next (reply .correlateNow f .badState [] s)) ∧
       (configured x = true → s.groups[x.group] ≠ none → stationServes s x.tester .tester c = true →
         stationServes s x.handler .handler c = true →
         ∃ t, exec (.correlateNow f) s = .next t ∧ correlating c s t ∧ Steady s t))) ∧
  (∀ (s : State) (c d : CellId), (groupOf s c).standby = some d → d ≠ c →
     (getCell s d).state = .idle → (getCell s d).actingFor = none → isStandby s d = true →
     let t := correlationStart c s
     (getCell t d).actingFor = some c ∧
     ((∃ i, (getCell t d).lot = some i ∧ i ∈ s.queue ∧ ((getCell t d).state = .running ∨ (getCell t d).state = .loading))
       ∨ ((getCell t d).state = .idle ∧ (getCell t d).latch = true ∧
           ((getCell s d).latch = false → (getCell s c).latch = false → (getCell t d).latchTime = s.mono) ∧
           ((getCell s d).latch = false → (getCell s c).latch = true →
             (getCell t d).latchTime = (getCell s c).latchTime))) ∧
     (∀ e, e ≠ c → e ≠ d → getCell t e = getCell s e))

/-- DISABLE takes an IDLE or DOWN cell OFFLINE with its latch, reservation, down reason and, for a standby, its cover
cleared; COVER_END ends a standby's cover; SITE_RESTORE adds the named sites to the active mask and clears their fail
runs, in every cell state (R44, R47, R135, R136, section 3.3). -/
def Obligations.CellSettingsAreCleared : Prop :=
  (∀ (f : Frame) (s : State) (c : CellId), authorised 1 f s → f.body = num 2 c.val →
     let x := getCell s c
     (x.state = .idle ∨ x.state = .down →
       exec (.cellSetDisable f) s = .next (reply .cellSet f .ok [1] (cellStateNotice c x.state
         (setCell c { x with
           state := .offline, latch := false, latchTime := 0, reserved := none, blockRemaining := 0
           blockDeadline := none, downReason := none
           actingFor := if isStandby s c = true then none else x.actingFor } s)))) ∧
     (x.state ≠ .idle → x.state ≠ .down → exec (.cellSetDisable f) s = .next (reply .cellSet f .badState [] s)) ∧
     (isStandby s c = true → x.actingFor ≠ none →
       exec (.cellSetCoverEnd f) s = .next (reply .cellSet f .ok [BitVec.ofNat 8 (cellStateCode x.state)]
         (setCell c (if x.state = .idle then
             { x with actingFor := none, latch := false, latchTime := 0, reserved := none, blockRemaining := 0
                      blockDeadline := none }
           else { x with actingFor := none }) s))) ∧
     (isStandby s c = false ∨ x.actingFor = none →
       exec (.cellSetCoverEnd f) s = .next (reply .cellSet f .badState [] s))) ∧
  (∀ (f : Frame) (s : State) (c : CellId) (sites : SiteSet), authorised 1 f s →
     readSiteRestore f.body = some (c, sites) →
     let x := getCell s c
     (sites = 0 ∨ sites &&& ~~~x.installed ≠ 0 →
       exec (.cellSetSiteRestore f) s = .next (reply .cellSet f .malformed [] s)) ∧
     (sites ≠ 0 → sites &&& ~~~x.installed = 0 →
       (∃ t y, exec (.cellSetSiteRestore f) s = .next t ∧ getCell t c = y ∧ Steady s t ∧ sameHolds s t ∧
         otherCells c s t ∧ y.installed = x.installed ∧
         (∀ k : Site, inSet y.active k = (inSet x.active k || inSet sites k) ∧
           y.failRuns[k] = if inSet sites k = true then 0 else x.failRuns[k])) ∧
       (waiting s c = false → ∃ y, exec (.cellSetSiteRestore f) s =
         .next (reply .cellSet f .ok ([BitVec.ofNat 8 (cellStateCode x.state)] ++ wordBytes (x.active ||| sites)) (setCell c y s))
         ∧ y = { x with active := x.active ||| sites, failRuns := y.failRuns })))

/-- CELL_SET RESUME sends a PAUSED cell's unblocked lot back to TESTING with a fresh touchdown deadline, keeping its pass
and numbering, and is refused for a SUSPECT cell or a blocked lot; the UNLOAD command asks a running lot to stop with
intent UNLOAD, strengthens a stop under way, and sends UNLOAD at once for a PAUSED or STALLED cell, with the group's
deadline (R48, R49, R51, R52, R58, R59). -/
def Obligations.ResumeAndUnloadMoveTheLot : Prop :=
  (∀ (f : Frame) (s : State) (c : CellId), authorised 1 f s → f.body = num 2 c.val →
     let x := getCell s c
     (∀ i l, x.lot = some i → getLot s i = some l → x.state = .paused → x.qual ≠ .suspect → blocked l = false →
       ∃ t, exec (.cellSetResume f) s = .next t ∧ getLot t i = some { l with state := .testing } ∧
         getCell t c = { x with state := .running, intent := .none, tdDeadline := some (s.mono + (productOf s l).tdTimeout) } ∧
         onlyPair i c s t ∧ t.queue = s.queue) ∧
     (x.state ≠ .paused ∨ x.qual = .suspect ∨ (∀ i l, x.lot = some i → getLot s i = some l → blocked l = true) →
       exec (.cellSetResume f) s = .next (reply .cellSet f .badState [] s))) ∧
  (∀ (f : Frame) (s : State) (c : CellId) (i : SlotId) (l : Lot), authorised 1 f s → f.body = num 2 c.val →
     (getCell s c).lot = some i → getLot s i = some l →
     let x := getCell s c
     (x.state = .running → l.state = .testing →
       ∃ t, exec (.unload f) s = .next t ∧ getLot t i = some { l with state := .stopping } ∧
         getCell t c = { x with state := .stopping, intent := .unload } ∧ onlyPair i c s t ∧ t.queue = s.queue) ∧
     (x.state = .stopping → l.state = .stopping →
       exec (.unload f) s = .next (reply .unload f .ok [6] (setCell c { x with intent := .unload } s))) ∧
     (x.state = .paused ∨ x.state = .stalled →
       ∃ t, exec (.unload f) s = .next t ∧ getLot t i = some { l with state := .unloading } ∧
         getCell t c = { x with
           state := .unloading, intent := .none, tdDeadline := none
           unloadDeadline := some (s.mono + (groupOf s c).unloadTimeout) } ∧
         onlyPair i c s t ∧ t.queue = s.queue) ∧
     (x.state ≠ .running → x.state ≠ .stopping → x.state ≠ .paused → x.state ≠ .stalled →
       exec (.unload f) s = .next (reply .unload f .badState [] s)))

/-- A taken STOPPED acts by the exit intent: PAUSE pauses lot and cell, UNLOAD unloads them, and NONE pauses a
blocked lot and resumes another; any other STOPPED is counted LATE, that of a cell without a lot among them (R50,
R51, R52). -/
def Obligations.StoppedActsByTheIntent : Prop :=
  (∀ (f : Frame) (s : State) (c : CellId), fromEquipment .handler 0 f s c →
    (∀ i l, (getCell s c).lot = some i → getLot s i ≠ some l) →
    exec (.stopped f) s = .next (count .late (forward (kindByte .stopped) [] f s))) ∧
  ∀ (f : Frame) (s : State) (c : CellId) (i : SlotId) (l : Lot), fromEquipment .handler 0 f s c →
    (getCell s c).lot = some i → getLot s i = some l →
    let x := getCell s c
    let taken := l.ident = f.hdr.lot ∧ l.state = .stopping ∧ (x.state = .stopping ∨ x.state = .stalled)
    (¬ taken → exec (.stopped f) s = .next (count .late (forward (kindByte .stopped) [] f s))) ∧
    (taken → ∃ t, exec (.stopped f) s = .next t ∧ onlyPair i c s t ∧ t.queue = s.queue ∧
      (x.intent = .pause ∨ x.intent = .none ∧ blocked l = true →
        getLot t i = some { l with state := .paused } ∧
        getCell t c = { x with state := .paused, intent := .none, tdDeadline := none }) ∧
      (x.intent = .unload ∨ x.intent = .none ∧ blocked l = false ∧ x.qual = .suspect →
        getLot t i = some { l with state := .unloading } ∧
        getCell t c = { x with
          state := .unloading, intent := .none, tdDeadline := none
          unloadDeadline := some (s.mono + (groupOf s c).unloadTimeout) }) ∧
      (x.intent = .none → blocked l = false → x.qual ≠ .suspect →
        getLot t i = some { l with state := .testing } ∧
        getCell t c = { x with
          state := .running, intent := .none, tdDeadline := some (s.mono + (productOf s l).tdTimeout) }))

/-- A taken UNLOADED parts lot and cell: a blocked lot becomes HELD, any other goes back to the queue; a SUSPECT cell's lot
carries a CELL_SUSPECT hold or the overflow flag. A DUE or SUSPECT cell becomes CORRELATING. Any other becomes IDLE with its
latch clear and takes no lot at once: a standby whose cover this boundary ends, or that covers nothing, loses its
reservation; a reservation with lots remaining keeps standing and its block wait starts, and one without is cleared
(R53, R73, R76, R79, R126, R135). -/
def Obligations.UnloadedPartsLotAndCell : Prop :=
  ∀ (f : Frame) (s : State) (c : CellId) (i : SlotId) (l : Lot), fromEquipment .handler 0 f s c →
    (getCell s c).lot = some i → getLot s i = some l → l.cell = some c → l.state = .unloading → i ∉ s.queue →
    let x := getCell s c
    noneWaits s → ((groupOf s c).standby = none ∨ (x.qual ≠ .due ∧ x.qual ≠ .suspect)) →
    let ended := (groupOf s c).standby = some c ∧ ∀ d, x.actingFor = some d →
      (getCell s d).state ≠ .correlating ∧ (getCell s d).state ≠ .down ∧ (getCell s d).qual ≠ .unqualified
    ((x.state ≠ .unloading ∨ l.ident ≠ f.hdr.lot) →
      exec (.unloaded f) s = .next (count .late (forward (kindByte .unloaded) [] f s))) ∧
    (x.state = .unloading → l.ident = f.hdr.lot → ∃ t m, exec (.unloaded f) s = .next t ∧ getLot t i = some m ∧
      m.cell = none ∧ m.lastCell = some c ∧ m.bins = l.bins ∧ m.pool = l.pool ∧ m.pass = l.pass ∧
      (getCell t c).lot = none ∧ (getCell t c).unloadDeadline = none ∧ otherCells c s t ∧ otherLots i s t ∧
      Steady s t ∧
      (blocked l = true → m.state = .held ∧ t.queue = s.queue) ∧
      (blocked l = false → x.qual ≠ .suspect →
        m.state = .queued ∧ i ∈ t.queue ∧ m.queueTime = floorTime s ∧ m.agingStart = s.mono) ∧
      (x.qual ≠ .due → x.qual ≠ .suspect →
        let y := getCell t c
        let freed := y.reserved = none ∧ y.blockRemaining = 0 ∧ y.blockDeadline = none
        m.holds = l.holds ∧ y.state = .idle ∧ y.latch = false ∧ y.latchTime = 0 ∧ y.loaded = x.loaded ∧ y.qual = x.qual ∧
        (ended → freed ∧ y.actingFor = none) ∧
        (¬ ended → y.actingFor = x.actingFor ∧
          (x.reserved = none ∨ x.blockRemaining = 0 → freed) ∧
          (x.reserved ≠ none → x.blockRemaining ≠ 0 →
            y.reserved = x.reserved ∧ y.blockRemaining = x.blockRemaining ∧
            y.blockDeadline = if (groupOf s c).blockWait = 0 then none else some (s.mono + (groupOf s c).blockWait)))) ∧
      (x.qual = .due ∨ x.qual = .suspect → (getCell t c).state = .correlating) ∧
      (x.qual = .suspect → m.overflow = true ∨ ∃ h ∈ m.holds, h.origin = .auto ∧ h.reason = 135))

/-- The touchdown deadline stalls a RUNNING or STOPPING cell and leaves its lot and intent; the unload deadline
puts the cell DOWN, UNLOAD_LOST, and its lot HELD under a MATERIAL hold or the overflow flag; neither acts before
its time (R54, R56; log 2). -/
def Obligations.CellDeadlinesStallOrLose : Prop :=
  ∀ (s : State) (c : CellId),
    let x := getCell s c
    ((∀ d, x.tdDeadline = some d → s.mono < d) → exec (.touchdownDeadlineExpiry c) s = .next s) ∧
    (∀ d, x.tdDeadline = some d → d ≤ s.mono →
      (x.state = .running ∨ x.state = .stopping → exec (.touchdownDeadlineExpiry c) s =
        .next (cellStateNotice c x.state (setCell c { x with state := .stalled, tdDeadline := none } s)))) ∧
    ((∀ d, x.unloadDeadline = some d → s.mono < d) → exec (.unloadDeadlineExpiry c) s = .next s) ∧
    (∀ d i l, x.unloadDeadline = some d → d ≤ s.mono → x.lot = some i → getLot s i = some l → l.cell = some c →
      l.state = .unloading →
      ∃ t m, exec (.unloadDeadlineExpiry c) s = .next t ∧ getLot t i = some m ∧ m.state = .held ∧ m.cell = none ∧
        m.lastCell = some c ∧ (m.overflow = true ∨ ∃ h ∈ m.holds, h.origin = .auto ∧ h.reason = 136) ∧
        (getCell t c).state = .down ∧ (getCell t c).downReason = some .unloadLost ∧ (getCell t c).lot = none ∧
        (getCell t c).unloadDeadline = none ∧ (getCell t c).latch = false ∧ (getCell t c).reserved = none ∧
        (getCell t c).intent = .none ∧ otherCells c s t ∧ otherLots i s t ∧ Steady s t)

/-! ## Loads -/

/-- A LOAD_SEGMENT from the file server to a tester whose cell loads is counted in the load record and goes on to the
tester; a load frame for a cell with no load record is counted BAD_STATE; a TD_RESULT or LOT_END of another lot or pass,
or of a cell that carries no material, is counted LATE, and a TD_RESULT not above the last number taken DUPLICATE_TD
(R87, R96, R99, R100, R160, R178). A load deadline not reached does nothing (log 2). -/
def Obligations.LoadSegmentsAndLateReportsAreCounted : Prop :=
  (∀ (f : Frame) (s : State) (c : CellId), fromFileServer f s c →
     let passed := forward (kindByte .loadSegment) [] f s
     ((getCell s c).load = none → exec (.loadSegment f) s = .next (count .badState passed)) ∧
     (∀ r, (getCell s c).load = some r →
       exec (.loadSegment f) s =
         .next (setCell c { getCell s c with load := some { r with seen := min (r.seen + 1) 65535 } } passed))) ∧
  (∀ (f : Frame) (s : State) (c : CellId),
     ((getCell s c).load = none → fromEquipment .tester 10 f s c →
       exec (.programReady f) s = .next (count .badState (forward (kindByte .programReady) [] f s))) ∧
     ((getCell s c).load = none → f.port = .cell → fromEquipment .tester 0 f s c →
       exec (.loadAbort f) s = .next (count .badState (forward (kindByte .loadAbort) [] f s))) ∧
     ((getCell s c).load = none → f.port = .floor → fromFileServer f s c → f.body = [] →
       exec (.loadAbort f) s = .next (count .badState (forward (kindByte .loadAbort) [] f s))) ∧
     ((∀ r, (getCell s c).load = some r → s.mono < r.deadline) → exec (.loadDeadlineExpiry c) s = .next s)) ∧
  (∀ (f : Frame) (s : State) (c : CellId) (b : TdBody), fromEquipment .tester 23 f s c →
     readTdResult f.body = some b →
     let x := getCell s c
     let passed := forward (kindByte .tdResult) [] f s
     (cellLot s c = none → exec (.tdResult f) s = .next (count .late passed)) ∧
     (∀ i l, cellLot s c = some (i, l) →
       let accepted := (x.state = .running ∨ x.state = .stalled ∨ x.state = .stopping) ∧ l.ident = f.hdr.lot ∧ l.pass = b.pass
       (¬ accepted → exec (.tdResult f) s = .next (count .late passed)) ∧
       (accepted → b.number ≤ l.lastTd → exec (.tdResult f) s = .next (count .duplicateTd passed)))) ∧
  (∀ (f : Frame) (s : State) (c : CellId) (b : LotEndBody), fromEquipment .handler 6 f s c →
     readLotEnd f.body = some b →
     (∀ i l, cellLot s c = some (i, l) → l.ident = f.hdr.lot → l.pass = b.pass →
       (getCell s c).state ≠ .running ∧ (getCell s c).state ≠ .stalled ∧ (getCell s c).state ≠ .stopping) →
     exec (.lotEnd f) s = .next (count .late (forward (kindByte .lotEnd) [] f s)))

/-- PROGRAM_READY, LOAD_ABORT and LOAD_DEADLINE_EXPIRY end a load attempt. One that ends DONE sets the loaded program and
starts the lot, or, where the lot was pulled, leaves the cell correlating where it owes that, and else IDLE and asking for
work where no lot is queued. One that ends in another outcome is begun again while the attempts made are at most the
group's retries and the library holds the program, and else puts the cell DOWN, LOAD_FAILED, and its lot back in the queue
(R88 to R94). -/
def Obligations.LoadAttemptsEndByTheirOutcome : Prop :=
  (∀ (i : Instr) (s : State) (c : CellId) (r : LoadRecord), (getCell s c).load = some r → endsAttempt i c r .done s →
     let x := getCell s c
     (∀ j l, r.lot = some j → getLot s j = some l →
       ∃ t m, exec i s = .next t ∧ getLot t j = some m ∧ m.state = .testing ∧ m.lastTd = 0 ∧ m.cell = l.cell ∧
         (getCell t c).state = .running ∧ (getCell t c).loaded = some r.program ∧ (getCell t c).load = none ∧
         (getCell t c).intent = .none ∧ (getCell t c).tdDeadline = some (s.mono + (productOf s l).tdTimeout) ∧
         (getCell t c).lot = x.lot ∧ onlyPair j c s t ∧ t.queue = s.queue) ∧
     (r.lot = none → (groupOf s c).standby = none →
       ∃ t, exec i s = .next t ∧ Steady s t ∧ otherCells c s t ∧
         (x.qual = .due ∨ x.qual = .suspect →
           (getCell t c).state = .correlating ∧ (getCell t c).loaded = some r.program ∧ (getCell t c).load = none) ∧
         (x.qual ≠ .due → x.qual ≠ .suspect → s.queue = [] →
           (getCell t c).state = .idle ∧ (getCell t c).loaded = some r.program ∧ (getCell t c).load = none ∧
           (getCell t c).latch = true ∧
           (x.latch = false → (getCell t c).latchTime = s.mono)))) ∧
  (∀ (i : Instr) (s : State) (c : CellId) (r : LoadRecord) (outcome : LoadOutcome),
     (getCell s c).load = some r → endsAttempt i c r outcome s → outcome ≠ .done →
     let x := getCell s c
     let retried := r.attempts ≤ (groupOf s c).loadRetries ∧ findProgram s r.program ≠ none
     (retried → ∃ t, exec i s = .next t ∧ Steady s t ∧ otherCells c s t ∧ t.lots = s.lots ∧ t.queue = s.queue ∧
       getCell t c = { x with load := some { r with
         attempts := r.attempts + 1
         expected := (segmentsOf s r.program).getD 0
         seen := 0
         deadline := s.mono + (groupOf s c).loadTimeout } }) ∧
     (¬ retried → ∃ t, exec i s = .next t ∧ Steady s t ∧ (getCell t c).state = .down ∧
       (getCell t c).downReason = some .loadFailed ∧ (getCell t c).load = none ∧ (getCell t c).loaded = x.loaded ∧
       (getCell t c).latch = false ∧ (getCell t c).reserved = none ∧ (getCell t c).qual = x.qual ∧
       (r.lot = none → t.lots = s.lots ∧ otherCells c s t) ∧
       (∀ j l, r.lot = some j → getLot s j = some l →
         (getCell t c).lot = none ∧ otherLots j s t ∧
         (noneWaits s → ∃ m, getLot t j = some m ∧ m.state = .queued ∧ m.cell = none ∧ m.lastCell = some c ∧
           m.queueTime = floorTime s ∧ m.agingStart = s.mono ∧ j ∈ t.queue ∧ otherCells c s t))))

/-! ## Touchdowns -/

/-- A taken touchdown counts the reported sites, those of the set that are active, in ascending order, each code
above 15 as bin 0: in pass 0 while the lot's tested units are below its start quantity, in a retest pass while its
pool lasts; inactive sites are counted, an excess asks for an OVERCOUNT hold, and a STALLED cell returns
(R55, R57, R100, R103 to R107). -/
def Obligations.TouchdownsCountTheReportedSites : Prop :=
  ∀ (f : Frame) (s : State) (c : CellId) (i : SlotId) (l : Lot) (b : TdBody), fromEquipment .tester 23 f s c →
    readTdResult f.body = some b → cellLot s c = some (i, l) → l.cell = some c →
    tdAccepted (getCell s c) l f.hdr.lot b = true → l.lastTd < b.number → (l.state = .testing ∨ l.state = .stopping) →
    let x := getCell s c
    let sites := (List.finRange 16).filter fun k : Site => inSet b.sites k && inSet x.active k
    let bins := sites.map fun k => (if h : b.codes[k].toNat < 16 then ⟨b.codes[k].toNat, h⟩ else 0 : Bin)
    let room := if l.pass = 0 then l.startQty - l.tested else l.pool
    let counted := bins.take room
    let inactive := ((List.finRange 16).filter fun k : Site => inSet b.sites k && !inSet x.active k).length
    ∃ t m, exec (.tdResult f) s = .next t ∧ getLot t i = some m ∧
      (∀ k : Bin, m.bins[k] = l.bins[k] + counted.count k) ∧
      (l.pass = 0 → m.tested = l.tested + counted.length ∧ m.pool = l.pool) ∧
      (l.pass ≠ 0 → m.tested = l.tested ∧ m.pool = l.pool - counted.length) ∧
      m.lastTd = b.number ∧ m.pass = l.pass ∧ m.ident = l.ident ∧ m.startQty = l.startQty ∧
      (room < bins.length → m.overflow = true ∨ ∃ h ∈ m.holds, h.origin = .auto ∧ h.reason = 130) ∧
      t.counters = { s.counters with siteInactive := min (s.counters.siteInactive + inactive) 4294967295 } ∧
      (getCell t c).tdDeadline = some (s.mono + (productOf s l).tdTimeout) ∧
      (getCell t c).state ≠ .stalled ∧ otherCells c s t ∧ otherLots i s t ∧
      t.products = s.products ∧ t.groups = s.groups ∧ t.queue = s.queue ∧ t.sweep = s.sweep

/-- A pass-0 touchdown with counted sites moves the cell's yield average toward its touchdown yield, counts one
toward the correlation interval and one off the soak; a retest touchdown or one without counted sites leaves
all three (R101, R111, R112, R115, R116). The counted one makes a cell with too few active sites SUSPECT, raises DUE at the
correlation interval, turns SOAKING into QUALIFIED at the end of its soak, and after it makes a cell whose estimate is below
the drift floor SUSPECT; a cell that becomes SUSPECT is stopped with intent UNLOAD; a lot judged on its
minimum sample gets the LOW_YIELD and BIN_LIMIT holds its counts call for, and no other automatic hold, and a lot that
gets none on a cell that stays as it was goes on (R102, R107, R110, R115 to R119, R125). -/
def Obligations.TouchdownsMoveTheYieldAverage : Prop :=
  (∀ (f : Frame) (s : State) (c : CellId) (i : SlotId) (l : Lot) (b : TdBody), fromEquipment .tester 23 f s c →
    readTdResult f.body = some b → cellLot s c = some (i, l) →
    tdAccepted (getCell s c) l f.hdr.lot b = true → l.lastTd < b.number →
    let x := getCell s c
    let sites := (List.finRange 16).filter fun k : Site => inSet b.sites k && inSet x.active k
    let bins := sites.map fun k => (if h : b.codes[k].toNat < 16 then ⟨b.codes[k].toNat, h⟩ else 0 : Bin)
    let counted := bins.take (l.startQty - l.tested)
    let good := (counted.filter fun k => inSet (productOf s l).passBins k).length
    let y : Int := (good * 10000 / counted.length : Nat)
    ∃ t, exec (.tdResult f) s = .next t ∧
      (l.pass = 0 → counted ≠ [] →
        ((getCell t c).average : Int) = x.average + (256 * y - x.average) / (2 ^ ((groupOf s c).iirCode + 2) : Nat) ∧
        (getCell t c).sinceCorr = min (x.sinceCorr + 1) 65535 ∧ (getCell t c).soak = x.soak - 1) ∧
      (l.pass ≠ 0 ∨ counted = [] →
        (getCell t c).average = x.average ∧ (getCell t c).sinceCorr = x.sinceCorr ∧ (getCell t c).soak = x.soak ∧
        (getCell t c).active = x.active ∧ (getCell t c).failRuns = x.failRuns ∧ (getCell t c).qual = x.qual)) ∧
  (∀ (f : Frame) (s : State) (c : CellId) (i : SlotId) (l : Lot) (b : TdBody), fromEquipment .tester 23 f s c →
    readTdResult f.body = some b → cellLot s c = some (i, l) → l.cell = some c →
    tdAccepted (getCell s c) l f.hdr.lot b = true → l.lastTd < b.number →
    pairStates l.state (getCell s c).state = true → l.pass = 0 →
    let x := getCell s c
    let p := productOf s l
    let sites := (List.finRange 16).filter fun k : Site => inSet b.sites k && inSet x.active k
    let counted := sites.take (l.startQty - l.tested)
    let tooMany := l.startQty - l.tested < sites.length
    counted ≠ [] →
    ∃ t m, exec (.tdResult f) s = .next t ∧ getLot t i = some m ∧
      (let y := getCell t c
       let interval := (groupOf s c).corrInterval
       let q4 := if p.failRunLimit ≠ 0 ∧ size y.active < p.minActive ∧ x.qual ≠ .unqualified then .suspect else x.qual
       let q7 := if interval ≠ 0 ∧ interval ≤ y.sinceCorr ∧ (q4 = .qualified ∨ q4 = .soaking) then .due else q4
       let q8 := if x.soak = 1 ∧ q7 = .soaking then .qualified else q7
       let drifts := x.soak = 0 ∧ (q8 = .qualified ∨ q8 = .due) ∧
         ((y.average / 256 : Nat) : Int) + offsetOf s c l.product < p.driftFloor
       let good := (((List.finRange 16).filter fun k : Bin => inSet p.passBins k).map fun k => m.bins[k]).sum
       let low := p.minSample ≤ m.tested ∧ good * 10000 < p.yieldFloor * m.tested
       let exceeded := p.minSample ≤ m.tested ∧ ∃ (k : Bin) (limit : Nat), inSet p.passBins k = false ∧
         p.binLimits[k] = some limit ∧ limit * m.tested < m.bins[k] * 10000
       y.qual = (if drifts then .suspect else q8) ∧
       (low → m.overflow = true ∨ ∃ h ∈ m.holds, h.origin = .auto ∧ h.reason = 128) ∧
       (exceeded → m.overflow = true ∨ ∃ h ∈ m.holds, h.origin = .auto ∧ h.reason = 129) ∧
       (∀ h ∈ m.holds, h ∉ l.holds → h.origin = .auto ∧ h.kind = .blocking ∧
         ((h.reason = 128 ∧ low ∧ h.level = p.autoLevels[0]) ∨ (h.reason = 129 ∧ exceeded ∧ h.level = p.autoLevels[1])
           ∨ (h.reason = 130 ∧ tooMany ∧ h.level = p.autoLevels[2]))) ∧
       (m.overflow = true → l.overflow = true ∨ low ∨ exceeded ∨ tooMany) ∧
       (y.qual = .suspect → x.qual ≠ .suspect →
         m.state = .stopping ∧ y.state = .stopping ∧ y.intent = .unload) ∧
       (m.holds ≠ l.holds ∨ m.overflow ≠ l.overflow →
         m.state = .stopping ∧ y.state = .stopping ∧
         (l.state = .testing → y.intent = if y.qual = .suspect ∧ x.qual ≠ .suspect then .unload else .pause)) ∧
       (m.holds = l.holds → m.overflow = l.overflow → y.qual ≠ .suspect ∨ x.qual = .suspect →
         m.state = l.state ∧ y.intent = x.intent ∧ y.state = if l.state = .testing then .running else .stopping)))

/-- The touchdown yield of n counted sites of which g passed is floor(g x 10000 / n), in 0..10000, and 10000
exactly when every one passed (R111). -/
def Obligations.TheTouchdownYieldIsInBasisPoints : Prop :=
  ∀ g n : Nat, 0 < n → g ≤ n →
    touchdownYield g n ≤ 10000 ∧ (touchdownYield g n = 10000 ↔ g = n) ∧
    touchdownYield g n * n ≤ g * 10000 ∧ g * 10000 < (touchdownYield g n + 1) * n

/-- At a pass-0 touchdown each counted site's fail run is cleared by a pass bin and raised by any other, and a run
that reaches the product's limit takes the site out of the active mask and starts anew; a limit of 0 turns this
off (R109, R110). -/
def Obligations.FailRunsDisableSites : Prop :=
  ∀ (f : Frame) (s : State) (c : CellId) (i : SlotId) (l : Lot) (b : TdBody), fromEquipment .tester 23 f s c →
    readTdResult f.body = some b → cellLot s c = some (i, l) →
    tdAccepted (getCell s c) l f.hdr.lot b = true → l.lastTd < b.number → l.pass = 0 →
    let x := getCell s c
    let p := productOf s l
    let sites := (List.finRange 16).filter fun k : Site => inSet b.sites k && inSet x.active k
    let counted := sites.take (l.startQty - l.tested)
    let bin := fun k : Site => (if h : b.codes[k].toNat < 16 then ⟨b.codes[k].toNat, h⟩ else 0 : Bin)
    ∃ t y, exec (.tdResult f) s = .next t ∧ getCell t c = y ∧ y.installed = x.installed ∧
      (p.failRunLimit = 0 → y.active = x.active ∧ y.failRuns = x.failRuns) ∧
      (p.failRunLimit ≠ 0 → ∀ k : Site,
        (k ∉ counted → y.failRuns[k] = x.failRuns[k] ∧ inSet y.active k = inSet x.active k) ∧
        (k ∈ counted → inSet p.passBins (bin k) = true → y.failRuns[k] = 0 ∧ inSet y.active k = true) ∧
        (k ∈ counted → inSet p.passBins (bin k) = false →
          (x.failRuns[k] + 1 < p.failRunLimit → y.failRuns[k] = x.failRuns[k] + 1 ∧ inSet y.active k = true) ∧
          (p.failRunLimit ≤ x.failRuns[k] + 1 → y.failRuns[k] = 0 ∧ inSet y.active k = false)))

/-! ## Lot end, QA and shipment -/

/-- A taken LOT_END of a lot with a retest pass due starts it on the same cell: the retest bins become the pool,
the pass rises and numbering restarts, and a held intent of UNLOAD, or a SUSPECT cell, stops the lot again at once
(R160 to R163). -/
def Obligations.LotEndStartsARetestPass : Prop :=
  ∀ (f : Frame) (s : State) (c : CellId) (i : SlotId) (l : Lot) (b : LotEndBody), fromEquipment .handler 6 f s c →
    readLotEnd f.body = some b → cellLot s c = some (i, l) →
    ((getCell s c).state = .running ∨ (getCell s c).state = .stalled ∨ (getCell s c).state = .stopping) →
    l.ident = f.hdr.lot → l.pass = b.pass →
    let p := productOf s l
    let x := getCell s c
    let rest := fun k : Bin => if k = 0 ∧ l.pass ≠ 0 then l.bins[k] + l.pool else l.bins[k]
    let again := (((List.finRange 16).filter fun k : Bin => inSet p.retestBins k).map rest).sum
    l.pass < p.maxRetest → 0 < again → blocked l = false →
    ∃ t m, exec (.lotEnd f) s = .next t ∧ getLot t i = some m ∧ m.pass = l.pass + 1 ∧ m.pool = again ∧
      (∀ k : Bin, m.bins[k] = if inSet p.retestBins k = true then 0 else rest k) ∧ m.tested = l.tested ∧ m.lastTd = 0 ∧
      m.cell = l.cell ∧ m.holds = l.holds ∧ (getCell t c).lot = x.lot ∧
      (getCell t c).tdDeadline = some (s.mono + p.tdTimeout) ∧ (getCell t c).average = x.average ∧
      (getCell t c).reserved = x.reserved ∧ (getCell t c).blockRemaining = x.blockRemaining ∧ onlyPair i c s t ∧
      t.queue = s.queue ∧
      (x.intent ≠ .unload → x.qual ≠ .suspect →
        m.state = .testing ∧ (getCell t c).state = .running ∧ (getCell t c).intent = .none) ∧
      (x.intent = .unload ∨ x.qual = .suspect →
        m.state = .stopping ∧ (getCell t c).state = .stopping ∧ (getCell t c).intent = .unload)

/-- A taken LOT_END that is the lot's final end closes its pass, sets its reconciliation, parts it from its cell
as TESTED or EMPTY, and asks for the RECONCILE and UNIT_LOSS holds its numbers call for (R161, R164 to R167). At the lot
boundary a DUE or SUSPECT cell correlates; a standby whose cover its boundary ends, or that covers nothing, becomes IDLE with
its reservation cleared; any other goes by its mode: SINGLE to IDLE, SUCCESSIVE to the next lot of its program or to IDLE,
BLOCK to the next lot of its block, to waiting with its block wait, or to IDLE at the end of the block
(R73 to R75, R78, R79, R135). -/
def Obligations.LotEndClosesTheLot : Prop :=
  ∀ (f : Frame) (s : State) (c : CellId) (i : SlotId) (l : Lot) (b : LotEndBody), fromEquipment .handler 6 f s c →
    readLotEnd f.body = some b → cellLot s c = some (i, l) →
    ((getCell s c).state = .running ∨ (getCell s c).state = .stalled ∨ (getCell s c).state = .stopping) →
    (l.state = .testing ∨ l.state = .stopping) → l.cell = some c → l.ident = f.hdr.lot → l.pass = b.pass →
    i ∉ s.queue → l.qa = none → (∀ h ∈ l.holds, holdKept h) →
    let p := productOf s l
    let x := getCell s c
    let ended := (groupOf s c).standby = some c ∧ ∀ d, x.actingFor = some d →
      (getCell s d).state ≠ .correlating ∧ (getCell s d).state ≠ .down ∧ (getCell s d).qual ≠ .unqualified
    let rest := fun k : Bin => if k = 0 ∧ l.pass ≠ 0 then l.bins[k] + l.pool else l.bins[k]
    let again := (((List.finRange 16).filter fun k : Bin => inSet p.retestBins k).map rest).sum
    let good := (((List.finRange 16).filter fun k : Bin => inSet p.passBins k).map rest).sum
    let fails := (((List.finRange 16).filter fun k : Bin => !inSet p.passBins k).map rest).sum
    (p.maxRetest ≤ l.pass ∨ again = 0 ∨ blocked l = true) →
    ∃ t m, exec (.lotEnd f) s = .next t ∧ getLot t i = some m ∧ (∀ k : Bin, m.bins[k] = rest k) ∧
      m.tested = l.tested ∧ m.cell = none ∧ m.lastCell = some c ∧ m.state = (if good = 0 then .empty else .tested) ∧
      (∃ r, m.recon = some r ∧ r.goodOut = b.goodOut ∧ r.rejectOut = b.rejectOut ∧
        (r.value = .matched ↔ b.goodOut = good ∧ b.rejectOut = fails)) ∧
      (b.goodOut ≠ good ∨ b.rejectOut ≠ fails →
        m.overflow = true ∨ ∃ h ∈ m.holds, h.origin = .auto ∧ h.reason = 131 ∧ h.kind = .blocking) ∧
      (p.lossAllowance < l.startQty - l.tested →
        m.overflow = true ∨ ∃ h ∈ m.holds, h.origin = .auto ∧ h.reason = 132 ∧ h.kind = .blocking) ∧
      (x.qual = .suspect → m.overflow = true ∨ ∃ h ∈ m.holds, h.origin = .auto ∧ h.reason = 135 ∧ h.kind = .advisory) ∧
      (getCell t c).lot ≠ some i ∧
      (x.qual = .due ∨ x.qual = .suspect → (getCell t c).state = .correlating) ∧
      (x.qual ≠ .due → x.qual ≠ .suspect →
        let y := getCell t c
        let idle := y.state = .idle ∧ y.lot = none ∧ y.latch = false ∧ y.latchTime = 0 ∧ otherLots i s t ∧ t.queue = s.queue
        let freed := y.reserved = none ∧ y.blockRemaining = 0 ∧ y.blockDeadline = none
        let started := fun j => (∃ w, getLot t j = some w ∧ w.state = .testing ∧ w.cell = some c ∧ w.lastTd = 0) ∧
          y.lot = some j ∧ y.state = .running ∧ y.intent = .none ∧ y.latch = x.latch ∧ t.queue = s.queue.erase j ∧
          (∀ k, k ≠ i → k ≠ j → getLot t k = getLot s k)
        y.loaded = x.loaded ∧ y.load = x.load ∧ otherCells c s t ∧
        (ended → idle ∧ freed ∧ y.actingFor = none) ∧
        (¬ ended → y.actingFor = x.actingFor ∧
          (x.mode = .single → idle ∧ y.reserved = x.reserved) ∧
          (x.mode = .successive →
            (choose s c (programMatches s c) = none → idle ∧ y.reserved = x.reserved) ∧
            (∀ j, choose s c (programMatches s c) = some j → started j ∧ y.reserved = x.reserved)) ∧
          (x.mode = .block →
            (x.reserved = none ∨ x.blockRemaining = 0 → idle ∧ freed) ∧
            (x.reserved ≠ none → x.blockRemaining ≠ 0 →
              (choose s c (fun _ => true) = none →
                y.state = .idle ∧ y.lot = none ∧ y.latch = true ∧ (x.latch = false → y.latchTime = s.mono) ∧ y.reserved = x.reserved ∧
                y.blockRemaining = x.blockRemaining ∧ otherLots i s t ∧ t.queue = s.queue ∧
                y.blockDeadline = if (groupOf s c).blockWait = 0 then none else some (s.mono + (groupOf s c).blockWait)) ∧
              (∀ j, choose s c (fun _ => true) = some j →
                started j ∧ y.reserved = x.reserved ∧ y.blockRemaining = x.blockRemaining - 1)))))

/-- A taken QA_RESULT is judged against its tier and recorded; an ACCEPTED one releases a lot without holds at the
tail of the release list, and the other verdicts ask for their holds (R28, R168 to R171). -/
def Obligations.QaResultsAreJudged : Prop :=
  ∀ (f : Frame) (s : State) (sample rejects : Nat) (i : SlotId) (l : Lot) (tiers : List Tier) (n : Tier),
    requestReaches .qa f s → readQaResult f.body = some (sample, rejects) → rejects ≤ sample →
    findLot s f.hdr.lot = some i → getLot s i = some l →
    (l.state ≠ .tested → exec (.qaResult f) s = .next (answer (askerOf f) [11] .badState [] s)) ∧
    (l.state = .tested → s.plans[(productOf s l).plan] = some tiers → tierFor tiers (goodCount (productOf s l) l) = some n →
      ∃ t m q, exec (.qaResult f) s = .next t ∧ getLot t i = some m ∧ m.qa = some q ∧ q.sample = sample ∧
        q.rejects = rejects ∧ m.bins = l.bins ∧ m.recon = l.recon ∧ Steady s t ∧ otherLots i s t ∧ t.cells = s.cells ∧
        t.queue = s.queue ∧
        (sample < n.sample → q.verdict = .short ∧ m.state = .tested ∧ t.releaseList = s.releaseList ∧
          (m.overflow = true ∨ ∃ h ∈ m.holds, h.origin = .auto ∧ h.reason = 133)) ∧
        (n.sample ≤ sample → n.accept < rejects → q.verdict = .rejected ∧ m.state = .tested ∧
          t.releaseList = s.releaseList ∧ (m.overflow = true ∨ ∃ h ∈ m.holds, h.origin = .auto ∧ h.reason = 134)) ∧
        (n.sample ≤ sample → rejects ≤ n.accept → q.verdict = .accepted ∧ m.holds = l.holds ∧
          (l.holds = [] → l.overflow = false →
            m.state = .released ∧ m.releaseTime = some (floorTime s) ∧ t.releaseList = s.releaseList ++ [i]) ∧
          (l.holds ≠ [] ∨ l.overflow = true → m.state = .tested ∧ t.releaseList = s.releaseList)))

/-- A SHIP_REQUEST is granted to a named RELEASED lot and, naming none, to the head of the release list: the record
is freed and the answer names it; every other request is denied and changes nothing (R173, R174). -/
def Obligations.ShipRequestsAreGrantedOrDenied : Prop :=
  ∀ (f : Frame) (s : State), requestReaches .dock f s → f.body = [] →
    (∀ i l e, s.products[l.product] = some e → getLot s i = some l →
      (f.hdr.lot = noLot ∧ s.releaseList.head? = some i
        ∨ f.hdr.lot ≠ noLot ∧ findLot s f.hdr.lot = some i ∧ l.state = .released) →
      ∃ t, exec (.shipRequest f) s = .next (answer (askerOf f) [12] .ok
          ([1] ++ l.ident.toList ++ e.ident.toList ++ num 2 (goodCount e l)) t) ∧
        getLot t i = none ∧ otherLots i s t ∧ t.cells = s.cells ∧ t.releaseList = s.releaseList.erase i ∧
        t.queue = s.queue.erase i ∧ t.products = s.products.set l.product (some { e with inUse := e.inUse - 1 })) ∧
    (f.hdr.lot = noLot → s.releaseList = [] →
      exec (.shipRequest f) s = .next (answer (askerOf f) [12] .badState [4] s)) ∧
    (f.hdr.lot ≠ noLot →
      ((∀ j m, getLot s j = some m → m.ident ≠ f.hdr.lot) →
        exec (.shipRequest f) s = .next (answer (askerOf f) [12] .unknownLot [5] s)) ∧
      (∀ i l, findLot s f.hdr.lot = some i → getLot s i = some l → l.state ≠ .released →
        (l.holds ≠ [] ∨ l.overflow = true →
          exec (.shipRequest f) s = .next (answer (askerOf f) [12] .badState [2] s)) ∧
        (l.holds = [] → l.overflow = false →
          exec (.shipRequest f) s = .next (answer (askerOf f) [12] .badState [3] s))))

/-! ## Correlation -/

/-- A CORR_RESULT of a golden serial is recorded at the tail in place of an earlier one; any other, and any without
a run, is counted BAD_STATE; it is neither forwarded nor answered (R130). R130 gives the bin code a range of 0..255: that a
code of 256..65535, which its two bytes can carry, is taken and recorded as reported is log 34, the model's choice. -/
def Obligations.CorrelationResultsKeepTheLastReport : Prop :=
  ∀ (f : Frame) (s : State) (c : CellId) (g : GoldenResult), fromEquipment .tester 4 f s c →
    readCorrResult f.body = some g →
    ((getCell s c).run = none → exec (.corrResult f) s = .next (count .badState s)) ∧
    (∀ r, (getCell s c).run = some r →
      ((∀ u ∈ (groupOf s c).golden, u.serial ≠ g.serial) → exec (.corrResult f) s = .next (count .badState s)) ∧
      ((∃ u ∈ (groupOf s c).golden, u.serial = g.serial) →
        exec (.corrResult f) s = .next (setCell c { getCell s c with
          run := some { r with results := r.results.filter (fun e => e.serial ≠ g.serial) ++ [g] } } s)))

/-- A run ends by CORR_END or at its deadline, and is judged by its mismatches alone: a pass makes the cell IDLE and
SOAKING with a full soak, a failure DOWN and UNQUALIFIED (R131 to R134). A deadline not reached does nothing (log 2). -/
def Obligations.RunsEndInSoakOrDown : Prop :=
  (∀ (i : Instr) (s : State) (c : CellId) (r : RunRecord), (getCell s c).run = some r → endsRun i c r s →
    let x := getCell s c
    let missed := (groupOf s c).golden.filter fun u => ¬ ∃ code, reportedCode r u = some code ∧ code = u.bin.val
    ∃ t y, exec i s = .next t ∧ getCell t c = y ∧ y.run = none ∧ y.latch = false ∧ y.latchTime = 0 ∧ Steady s t ∧
      t.lots = s.lots ∧ t.queue = s.queue ∧ y.average = x.average ∧ y.active = x.active ∧ y.loaded = x.loaded ∧
      (missed.length ≤ (groupOf s c).allowed →
        y.state = .idle ∧ y.qual = .soaking ∧ y.soak = 2 ^ ((groupOf s c).iirCode + 2) ∧ y.sinceCorr = 0 ∧
        y.lastProduct = none) ∧
      ((groupOf s c).allowed < missed.length →
        y.state = .down ∧ y.downReason = some .corrFailed ∧ y.qual = .unqualified ∧ y.reserved = none ∧
        y.soak = x.soak ∧ y.lastProduct = x.lastProduct ∧ otherCells c s t)) ∧
  (∀ (f : Frame) (s : State) (c : CellId), (getCell s c).run = none → fromEquipment .tester 0 f s c →
    exec (.corrEnd f) s = .next (count .badState s)) ∧
  (∀ (s : State) (c : CellId), (∀ r, (getCell s c).run = some r → s.mono < r.deadline) →
    exec (.correlationDeadlineExpiry c) s = .next s)

/-! ## Holds -/

/-- A taken HOLD_PLACE puts a station hold of the recorded level, the effective level or a weaker one named, at the tail of
the lot's list; a blocking one takes a QUEUED lot off the queue, pulls an ASSIGNED lot from its load, asks a TESTING
lot's cell to stop, and takes a RELEASED lot off the release list; an advisory one does the last alone (R142, R143, R146
to R148, R95). -/
def Obligations.HoldPlacementActsByTheLotState : Prop :=
  (∀ effective named : Level,
     recordedLevel effective none = effective ∧
     (effective < named → recordedLevel effective (some named) = named) ∧
     (named ≤ effective → recordedLevel effective (some named) = effective) ∧
     (∀ other, effective ≤ recordedLevel effective other)) ∧
  (∀ (f : Frame) (s : State) (b : HoldPlaceBody) (i : SlotId) (l : Lot), authorised 3 f s →
     readHoldPlace f.body = some b → findLot s f.hdr.lot = some i → getLot s i = some l →
     ((∃ h ∈ l.holds, h.reason = b.reason ∧ h.origin = .station f.hdr.src) →
       exec (.holdPlace f) s = .next (reply .holdPlace f .duplicate [] s)) ∧
     ((∀ h ∈ l.holds, h.reason = b.reason → h.origin ≠ .station f.hdr.src) →
       (8 ≤ l.holds.length → exec (.holdPlace f) s = .next (reply .holdPlace f .full [] s)) ∧
       (l.holds.length < 8 → named i l s → ∃ t m level, exec (.holdPlace f) s = .next t ∧ getLot t i = some m ∧
         level = recordedLevel (levelOf f s) b.level ∧
         m.holds = l.holds ++ [⟨nextFreeId s, b.reason, b.kind, level, .station f.hdr.src, floorTime s⟩] ∧
         t.nextHoldId = advanceId (nextFreeId s) ∧ m.bins = l.bins ∧ otherLots i s t ∧ Steady s t ∧
         (b.kind = .blocking →
           (l.state = .queued → m.state = .held ∧ t.queue = s.queue.erase i ∧ t.cells = s.cells) ∧
           (∀ c, l.state = .assigned → l.cell = some c →
             m.state = .held ∧ m.cell = none ∧ m.lastCell = some c ∧ otherCells c s t ∧
             getCell t c = { getCell s c with
               lot := none, load := (getCell s c).load.map fun r => { r with lot := none } }) ∧
           (∀ c, l.state = .testing → l.cell = some c → (getCell s c).lot = some i →
             ((getCell s c).state = .running → m.state = .stopping ∧
               getCell t c = { getCell s c with state := .stopping, intent := .pause }) ∧
             ((getCell s c).state = .stalled → m.state = .stopping ∧
               getCell t c = { getCell s c with intent := .pause })) ∧
           (l.state = .released → m.state = .tested ∧ m.releaseTime = none ∧ t.releaseList = s.releaseList.erase i) ∧
           (l.state = .paused ∨ l.state = .unloading ∨ l.state = .held ∨ l.state = .tested ∨ l.state = .empty →
             m.state = l.state ∧ t.cells = s.cells ∧ t.queue = s.queue)) ∧
         (b.kind = .advisory → t.cells = s.cells ∧ t.queue = s.queue ∧
           (l.state = .released → m.state = .tested ∧ m.releaseTime = none ∧ t.releaseList = s.releaseList.erase i) ∧
           (l.state ≠ .released → m.state = l.state ∧ t.releaseList = s.releaseList)))))

/-- The id a new hold is given is held by no lot, is in 1..65535, and is the first such from the counter on, 65535
being followed by 1; recording advances the counter past it; the overflow flag uses none, and cold reset sets the counter
to 1 (R141). -/
def Obligations.HoldIdsAreFresh : Prop :=
  (∀ s : State, (∀ i l, getLot s i = some l → l.holds.length ≤ 8) → 1 ≤ s.nextHoldId → s.nextHoldId ≤ 65535 →
     let after := fun n : Nat => (s.nextHoldId - 1 + n) % 65535 + 1
     let held := fun id : Nat => ∃ i l h, getLot s i = some l ∧ h ∈ l.holds ∧ h.id = id
     ∃ n, n < 65535 ∧ nextFreeId s = after n ∧ ¬ held (after n) ∧ (∀ m, m < n → held (after m)) ∧
       advanceId (nextFreeId s) = after (n + 1)) ∧
  (∀ (s : State) (i : SlotId) (l : Lot) reason kind level origin, getLot s i = some l →
     (recordHold i reason kind level origin s).nextHoldId = advanceId (nextFreeId s) ∧
     ∃ m h, getLot (recordHold i reason kind level origin s) i = some m ∧ m.holds = l.holds ++ [h] ∧
       h.id = nextFreeId s) ∧
  (∀ (s : State) (i : SlotId) reason, (setOverflow i reason s).nextHoldId = s.nextHoldId) ∧
  ∀ strap, (State.cold strap).nextHoldId = 1

/-- A HOLD_RELEASE of an id is refused BAD_STATE where the lot does not hold it and AUTHORITY where the effective level is
weaker than the hold's; else the record leaves the list, and a lot left unblocked by the removal of a blocking hold is
queued again, resumed, or loses its PAUSE intent by its state. With id 0 it clears the overflow flag at level 0 alone
(R150, R151, R152). -/
def Obligations.HoldReleaseFreesTheLot : Prop :=
  (∀ (f : Frame) (s : State) (id : Nat) (i : SlotId) (l : Lot), authorised 3 f s → 1 ≤ id → id ≤ 65535 →
     f.body = num 2 id → findLot s f.hdr.lot = some i → getLot s i = some l →
     ((∀ h ∈ l.holds, h.id ≠ id) → exec (.holdRelease f) s = .next (reply .holdRelease f .badState [] s)) ∧
     (∀ h, l.holds.find? (fun e => e.id = id) = some h →
       (h.level < levelOf f s → exec (.holdRelease f) s = .next (reply .holdRelease f .authority [] s)) ∧
       (levelOf f s ≤ h.level → named i l s → ∃ t m, exec (.holdRelease f) s = .next t ∧ getLot t i = some m ∧
         m.holds = l.holds.erase h ∧ m.overflow = l.overflow ∧ m.bins = l.bins ∧ otherLots i s t ∧ Steady s t ∧
         t.nextHoldId = s.nextHoldId ∧
         (let frees := h.kind = .blocking ∧ l.overflow = false ∧ ∀ e ∈ l.holds.erase h, e.kind = .advisory
          (¬ frees → l.state ≠ .tested → m.state = l.state ∧ t.cells = s.cells ∧ t.queue = s.queue) ∧
          (frees →
           (l.state = .held → noneWaits s → m.state = .queued ∧ i ∈ t.queue ∧ t.cells = s.cells) ∧
           (∀ c, l.state = .paused → l.cell = some c → (getCell s c).lot = some i →
             ((getCell s c).qual ≠ .suspect → m.state = .testing ∧
               getCell t c = { getCell s c with
                 state := .running, intent := .none, tdDeadline := some (s.mono + (productOf s l).tdTimeout) }) ∧
             ((getCell s c).qual = .suspect → m.state = .unloading ∧ (getCell t c).state = .unloading)) ∧
           (∀ c, l.state = .stopping → l.cell = some c → m.state = .stopping ∧
             getCell t c = { getCell s c with
               intent := if (getCell s c).intent = .pause then .none else (getCell s c).intent })) ∧
          (l.state = .tested →
           (l.holds.erase h = [] → l.overflow = false → (∃ q, l.qa = some q ∧ q.verdict = .accepted) →
             m.state = .released ∧ m.releaseTime = some (floorTime s) ∧ t.releaseList = s.releaseList ++ [i]) ∧
           (l.holds.erase h ≠ [] ∨ l.overflow = true ∨ (∀ q, l.qa = some q → q.verdict ≠ .accepted) →
             m.state = .tested ∧ t.releaseList = s.releaseList)))))) ∧
  (∀ (f : Frame) (s : State) (i : SlotId) (l : Lot), authorised 3 f s → f.body = [0, 0] →
     findLot s f.hdr.lot = some i → getLot s i = some l →
     (l.overflow = false → exec (.holdReleaseOverflow f) s = .next (reply .holdRelease f .badState [] s)) ∧
     (l.overflow = true →
       (levelOf f s ≠ 0 → exec (.holdReleaseOverflow f) s = .next (reply .holdRelease f .authority [] s)) ∧
       (levelOf f s = 0 → named i l s → ∃ t m, exec (.holdReleaseOverflow f) s = .next t ∧ getLot t i = some m ∧
         m.overflow = false ∧ m.holds = l.holds ∧ m.bins = l.bins ∧ otherLots i s t ∧ Steady s t ∧
         (l.state = .held → (∀ h ∈ l.holds, h.kind = .advisory) → noneWaits s → m.state = .queued ∧ i ∈ t.queue) ∧
         ((∃ h ∈ l.holds, h.kind = .blocking) → l.state ≠ .tested → m.state = l.state ∧ t.cells = s.cells))))

/-- A HOLD_SWEEP is refused while one runs, and taken starts one with the effective level captured and its answer owed. A
step looks at one slot: a free slot, or a lot without a matching hold, only moves the sweep on; matching holds at or
weaker than the captured level go, oldest first, up to the count that remains, whose end is answered OK with the slot, and a
stronger one ends a sweep that stops on refusal, answered AUTHORITY with what it had removed and the slot (R154, R155,
R156). -/
def Obligations.SweepsTakeTheMatchingHolds : Prop :=
  (∀ (f : Frame) (s : State) (b : SweepBody), authorised 3 f s → readSweep f.body = some b →
     (∀ v, b.product = some v → (∀ (p : ProductId) e, s.products[p] = some e → e.ident ≠ v) →
       exec (.holdSweep f) s = .next (reply .holdSweep f .unknownProduct [] s)) ∧
     (∀ product, (b.product = none ∧ product = none
         ∨ ∃ v p, b.product = some v ∧ findProduct s v = some p ∧ product = some p) →
       (s.sweep ≠ none → exec (.holdSweep f) s = .next (reply .holdSweep f .busy [] s)) ∧
       (s.sweep = none → exec (.holdSweep f) s = .next { s with
         sweep := some ⟨⟨f.port, f.hdr.src, f.hdr.tag, f.hdr.lot⟩, levelOf f s, b.reason, product, b.origin, b.start,
           b.maxCount, b.stopOnRefusal, 0⟩ }))) ∧
  (∀ (s : State) (w : Sweep) (i : SlotId), s.sweep = some w → w.next = i.val →
     let goesOn := fun (v : Sweep) (t : State) =>
       if i.val = 255 then
         answer w.asker [13, 26] .ok (num 2 v.removed ++ [1] ++ num 2 256) { t with sweep := none }
       else { t with sweep := some { v with next := i.val + 1 } }
     (getLot s i = none → exec .sweepStep s = .next (goesOn w s)) ∧
     (∀ l, getLot s i = some l →
       let hits := l.holds.filter (sweepMatches w l)
       let lifted := hits.filter fun h => w.captured ≤ h.level
       (hits = [] → exec .sweepStep s = .next (goesOn w s)) ∧
       (∀ h more, hits = h :: more → h.level < w.captured → w.stopOnRefusal = true →
         exec .sweepStep s = .next (answer w.asker [13, 26] .authority (num 2 w.removed ++ [3] ++ num 2 i.val)
           { s with sweep := none })) ∧
       ((lifted = hits ∨ w.stopOnRefusal = false) → lifted.length < w.remaining → named i l s →
         ∃ t m, exec .sweepStep s = .next t ∧ getLot t i = some m ∧ otherLots i s t ∧
           m.holds = l.holds.filter (fun h => !(sweepMatches w l h && decide (w.captured ≤ h.level))) ∧
           m.overflow = l.overflow ∧ t.products = s.products ∧ t.mono = s.mono ∧ t.counters = s.counters ∧
           t.sweep = if i.val = 255 then none else
             some { w with next := i.val + 1, removed := w.removed + lifted.length
                           remaining := w.remaining - lifted.length }) ∧
       (∀ before h more, hits = before ++ h :: more → (∀ e ∈ before, w.captured ≤ e.level) → h.level < w.captured →
         w.stopOnRefusal = true → before.length < w.remaining → named i l s →
         ∃ t u m, exec .sweepStep s = .next t ∧ getLot t i = some m ∧ otherLots i s t ∧ u.sweep = none ∧
           m.holds = before.foldl List.erase l.holds ∧ m.overflow = l.overflow ∧
           t = answer w.asker [13, 26] .authority (num 2 (w.removed + before.length) ++ [3] ++ num 2 i.val) u) ∧
       (∀ upTo : List Hold,
         upTo = (if w.stopOnRefusal = true then hits.takeWhile (fun h => decide (w.captured ≤ h.level)) else lifted) →
         1 ≤ w.remaining → w.remaining ≤ upTo.length → named i l s →
         ∃ t u m, exec .sweepStep s = .next t ∧ getLot t i = some m ∧ t.sweep = none ∧ u.sweep = none ∧
           m.holds = (upTo.take w.remaining).foldl List.erase l.holds ∧
           m.holds.length + w.remaining = l.holds.length ∧ otherLots i s t ∧
           t = answer w.asker [13, 26] .ok (num 2 (w.removed + w.remaining) ++ [2] ++ num 2 i.val) u)))

/-! ## The Link Unit -/

/-- STATION_WRITE and STATION_DELETE change their entry alone, refused in the order of R183 and R184. That a STATION_WRITE
heard under a former own address is compared with the own address in force when it is taken is log 35, the model's choice. -/
def Obligations.StationCommandsKeepTheTableLegal : Prop :=
  ∀ (f : Frame) (s : State), authorised 0 f s →
    let authority := fun v : Vector (Option Station) 64 =>
      ∃ (j : StationIx) (e : Station), v[j] = some e ∧ e.role = .floor ∧ e.level = 0
    (∀ (i : StationIx) (st : Station), readStationWrite f.body = some (i, st) →
      let refused := fun code => exec (.stationWrite f) s = .next (reply .stationWrite f code [] s)
      let free := ∀ (j : StationIx) e, j ≠ i → s.stations[j] = some e → e.address ≠ st.address
      let still := ∀ e, s.stations[i] = some e → stationWorks s e.address = true → e = st
      (st.address = s.link.own → refused .malformed) ∧
      (st.address ≠ s.link.own → ¬ free → refused .duplicate) ∧
      (st.address ≠ s.link.own → free → ¬ still → refused .inUse) ∧
      (st.address ≠ s.link.own → free → still → s.mode = .operating → ¬ authority (s.stations.set i (some st)) →
        refused .badState) ∧
      (st.address ≠ s.link.own → free → still → (s.mode = .operating → authority (s.stations.set i (some st))) →
        exec (.stationWrite f) s = .next (reply .stationWrite f .ok (stationBytes st)
          { s with stations := s.stations.set i (some st) }))) ∧
    (∀ i : StationIx, f.body = num 2 i.val →
      let refused := fun code => exec (.stationDelete f) s = .next (reply .stationDelete f code [] s)
      (s.stations[i] = none → refused .badState) ∧
      (∀ st, s.stations[i] = some st →
        let last := s.mode = .operating ∧ st.role = .floor ∧ st.level = 0 ∧ ¬ authority (s.stations.set i none)
        (stationWorks s st.address = true → refused .inUse) ∧
        (stationWorks s st.address = false → last → refused .badState) ∧
        (stationWorks s st.address = false → ¬ last →
          exec (.stationDelete f) s = .next (reply .stationDelete f .ok []
            { s with stations := s.stations.set i none }))))

/-- LINK_WRITE replaces the record whole, its aging interval clamped, after answering under the old one, and is refused
where the own address is a station's; COMMISSION_END makes the director OPERATING, and is refused where it is so already,
where no station of role FLOOR has level 0, or where the notice station is absent; COUNTERS_READ answers the six counters,
and with the clear indication, at level 1, sets them to 0 after (R188, R189, R193). -/
def Obligations.LinkCommissionAndCounterCommands : Prop :=
  (∀ (f : Frame) (s : State) (l : LinkConfig), authorised 0 f s → readLinkWrite f.body = some l →
     let stored := { l with aging := if l.aging = 0 then 0 else max 60000 (min l.aging 86400000) }
     ((∃ (j : StationIx) (e : Station), s.stations[j] = some e ∧ e.address = l.own) →
       exec (.linkWrite f) s = .next (reply .linkWrite f .duplicate [] s)) ∧
     ((∀ (j : StationIx) (e : Station), s.stations[j] = some e → e.address ≠ l.own) →
       exec (.linkWrite f) s = .next { reply .linkWrite f .ok (linkBytes stored) s with link := stored })) ∧
  (∀ (f : Frame) (s : State), authorised 0 f s → f.body = [] →
     let authority := ∃ (j : StationIx) (e : Station), s.stations[j] = some e ∧ e.role = .floor ∧ e.level = 0
     (s.mode = .commissioning → authority → s.link.notice ≠ none →
       exec (.commissionEnd f) s = .next (reply .commissionEnd f .ok [] { s with mode := .operating })) ∧
     (s.mode = .operating ∨ ¬ authority ∨ s.link.notice = none →
       exec (.commissionEnd f) s = .next (reply .commissionEnd f .badState [] s))) ∧
  (∀ (f : Frame) (s : State),
     let x := s.counters
     let values := num 4 x.unknownStation ++ num 4 x.badState ++ num 4 x.late ++ num 4 x.duplicateTd
       ++ num 4 x.siteInactive ++ num 4 x.malformed
     (authorised 3 f s → f.body = [0] →
       exec (.countersRead f) s = .next (reply .countersRead f .ok values s)) ∧
     (authorised 1 f s → f.body = [1] →
       exec (.countersReadClear f) s =
         .next (reply .countersRead f .ok values { s with counters := ⟨0, 0, 0, 0, 0, 0⟩ })))

/-- TIME_SET makes floor time the value carried and answers it before and after; no deadline, aging start or stamp
moves (R191). -/
def Obligations.TimeSetMovesFloorTimeAlone : Prop :=
  ∀ (f : Frame) (s : State) (time : Nat), authorised 0 f s → time < 4294967296 → f.body = num 4 time →
    ∃ t, exec (.timeSet f) s = .next (reply .timeSet f .ok (num 4 (floorTime s) ++ num 4 time) t) ∧
      floorTime t = time ∧ t = { s with offset := t.offset }
end

