-- ==== Sys2Proof/Laws/State.lean ====
section
/-! SUPPORT. What each basic update leaves as it was, one lemma per field and update, for simp; and what
reading a cell, a lot or a port after a write gives. -/

namespace Sys2Proof.Laws

open Sys2Proof Sys2Proof.Machine

/-! ## Cells and lots -/

@[simp] theorem setCell_cellPort (c : CellId) (x : Cell) (s : State) :
    (setCell c x s).cellPort = s.cellPort := rfl
@[simp] theorem setCell_floorPort (c : CellId) (x : Cell) (s : State) :
    (setCell c x s).floorPort = s.floorPort := rfl
@[simp] theorem setCell_strap (c : CellId) (x : Cell) (s : State) :
    (setCell c x s).strap = s.strap := rfl
@[simp] theorem setCell_stations (c : CellId) (x : Cell) (s : State) :
    (setCell c x s).stations = s.stations := rfl
@[simp] theorem setCell_link (c : CellId) (x : Cell) (s : State) :
    (setCell c x s).link = s.link := rfl
@[simp] theorem setCell_counters (c : CellId) (x : Cell) (s : State) :
    (setCell c x s).counters = s.counters := rfl
@[simp] theorem setCell_mono (c : CellId) (x : Cell) (s : State) :
    (setCell c x s).mono = s.mono := rfl
@[simp] theorem setCell_offset (c : CellId) (x : Cell) (s : State) :
    (setCell c x s).offset = s.offset := rfl
@[simp] theorem setCell_mode (c : CellId) (x : Cell) (s : State) :
    (setCell c x s).mode = s.mode := rfl
@[simp] theorem setCell_lots (c : CellId) (x : Cell) (s : State) :
    (setCell c x s).lots = s.lots := rfl
@[simp] theorem setCell_queue (c : CellId) (x : Cell) (s : State) :
    (setCell c x s).queue = s.queue := rfl
@[simp] theorem setCell_nextSeq (c : CellId) (x : Cell) (s : State) :
    (setCell c x s).nextSeq = s.nextSeq := rfl
@[simp] theorem setCell_seqExhausted (c : CellId) (x : Cell) (s : State) :
    (setCell c x s).seqExhausted = s.seqExhausted := rfl
@[simp] theorem setCell_products (c : CellId) (x : Cell) (s : State) :
    (setCell c x s).products = s.products := rfl
@[simp] theorem setCell_programs (c : CellId) (x : Cell) (s : State) :
    (setCell c x s).programs = s.programs := rfl
@[simp] theorem setCell_plans (c : CellId) (x : Cell) (s : State) :
    (setCell c x s).plans = s.plans := rfl
@[simp] theorem setCell_groups (c : CellId) (x : Cell) (s : State) :
    (setCell c x s).groups = s.groups := rfl
@[simp] theorem setCell_offsets (c : CellId) (x : Cell) (s : State) :
    (setCell c x s).offsets = s.offsets := rfl
@[simp] theorem setCell_nextHoldId (c : CellId) (x : Cell) (s : State) :
    (setCell c x s).nextHoldId = s.nextHoldId := rfl
@[simp] theorem setCell_sweep (c : CellId) (x : Cell) (s : State) :
    (setCell c x s).sweep = s.sweep := rfl
@[simp] theorem setCell_releaseList (c : CellId) (x : Cell) (s : State) :
    (setCell c x s).releaseList = s.releaseList := rfl
@[simp] theorem setCell_pending (c : CellId) (x : Cell) (s : State) :
    (setCell c x s).pending = s.pending := rfl

@[simp] theorem modCell_cellPort (c : CellId) (g : Cell → Cell) (s : State) :
    (modCell c g s).cellPort = s.cellPort := rfl
@[simp] theorem modCell_floorPort (c : CellId) (g : Cell → Cell) (s : State) :
    (modCell c g s).floorPort = s.floorPort := rfl
@[simp] theorem modCell_strap (c : CellId) (g : Cell → Cell) (s : State) :
    (modCell c g s).strap = s.strap := rfl
@[simp] theorem modCell_stations (c : CellId) (g : Cell → Cell) (s : State) :
    (modCell c g s).stations = s.stations := rfl
@[simp] theorem modCell_link (c : CellId) (g : Cell → Cell) (s : State) :
    (modCell c g s).link = s.link := rfl
@[simp] theorem modCell_counters (c : CellId) (g : Cell → Cell) (s : State) :
    (modCell c g s).counters = s.counters := rfl
@[simp] theorem modCell_mono (c : CellId) (g : Cell → Cell) (s : State) :
    (modCell c g s).mono = s.mono := rfl
@[simp] theorem modCell_offset (c : CellId) (g : Cell → Cell) (s : State) :
    (modCell c g s).offset = s.offset := rfl
@[simp] theorem modCell_mode (c : CellId) (g : Cell → Cell) (s : State) :
    (modCell c g s).mode = s.mode := rfl
@[simp] theorem modCell_lots (c : CellId) (g : Cell → Cell) (s : State) :
    (modCell c g s).lots = s.lots := rfl
@[simp] theorem modCell_queue (c : CellId) (g : Cell → Cell) (s : State) :
    (modCell c g s).queue = s.queue := rfl
@[simp] theorem modCell_nextSeq (c : CellId) (g : Cell → Cell) (s : State) :
    (modCell c g s).nextSeq = s.nextSeq := rfl
@[simp] theorem modCell_seqExhausted (c : CellId) (g : Cell → Cell) (s : State) :
    (modCell c g s).seqExhausted = s.seqExhausted := rfl
@[simp] theorem modCell_products (c : CellId) (g : Cell → Cell) (s : State) :
    (modCell c g s).products = s.products := rfl
@[simp] theorem modCell_programs (c : CellId) (g : Cell → Cell) (s : State) :
    (modCell c g s).programs = s.programs := rfl
@[simp] theorem modCell_plans (c : CellId) (g : Cell → Cell) (s : State) :
    (modCell c g s).plans = s.plans := rfl
@[simp] theorem modCell_groups (c : CellId) (g : Cell → Cell) (s : State) :
    (modCell c g s).groups = s.groups := rfl
@[simp] theorem modCell_offsets (c : CellId) (g : Cell → Cell) (s : State) :
    (modCell c g s).offsets = s.offsets := rfl
@[simp] theorem modCell_nextHoldId (c : CellId) (g : Cell → Cell) (s : State) :
    (modCell c g s).nextHoldId = s.nextHoldId := rfl
@[simp] theorem modCell_sweep (c : CellId) (g : Cell → Cell) (s : State) :
    (modCell c g s).sweep = s.sweep := rfl
@[simp] theorem modCell_releaseList (c : CellId) (g : Cell → Cell) (s : State) :
    (modCell c g s).releaseList = s.releaseList := rfl
@[simp] theorem modCell_pending (c : CellId) (g : Cell → Cell) (s : State) :
    (modCell c g s).pending = s.pending := rfl

@[simp] theorem setLot_cellPort (i : SlotId) (x : Option Lot) (s : State) :
    (setLot i x s).cellPort = s.cellPort := rfl
@[simp] theorem setLot_floorPort (i : SlotId) (x : Option Lot) (s : State) :
    (setLot i x s).floorPort = s.floorPort := rfl
@[simp] theorem setLot_strap (i : SlotId) (x : Option Lot) (s : State) :
    (setLot i x s).strap = s.strap := rfl
@[simp] theorem setLot_stations (i : SlotId) (x : Option Lot) (s : State) :
    (setLot i x s).stations = s.stations := rfl
@[simp] theorem setLot_link (i : SlotId) (x : Option Lot) (s : State) :
    (setLot i x s).link = s.link := rfl
@[simp] theorem setLot_counters (i : SlotId) (x : Option Lot) (s : State) :
    (setLot i x s).counters = s.counters := rfl
@[simp] theorem setLot_mono (i : SlotId) (x : Option Lot) (s : State) :
    (setLot i x s).mono = s.mono := rfl
@[simp] theorem setLot_offset (i : SlotId) (x : Option Lot) (s : State) :
    (setLot i x s).offset = s.offset := rfl
@[simp] theorem setLot_mode (i : SlotId) (x : Option Lot) (s : State) :
    (setLot i x s).mode = s.mode := rfl
@[simp] theorem setLot_queue (i : SlotId) (x : Option Lot) (s : State) :
    (setLot i x s).queue = s.queue := rfl
@[simp] theorem setLot_nextSeq (i : SlotId) (x : Option Lot) (s : State) :
    (setLot i x s).nextSeq = s.nextSeq := rfl
@[simp] theorem setLot_seqExhausted (i : SlotId) (x : Option Lot) (s : State) :
    (setLot i x s).seqExhausted = s.seqExhausted := rfl
@[simp] theorem setLot_products (i : SlotId) (x : Option Lot) (s : State) :
    (setLot i x s).products = s.products := rfl
@[simp] theorem setLot_programs (i : SlotId) (x : Option Lot) (s : State) :
    (setLot i x s).programs = s.programs := rfl
@[simp] theorem setLot_plans (i : SlotId) (x : Option Lot) (s : State) :
    (setLot i x s).plans = s.plans := rfl
@[simp] theorem setLot_groups (i : SlotId) (x : Option Lot) (s : State) :
    (setLot i x s).groups = s.groups := rfl
@[simp] theorem setLot_offsets (i : SlotId) (x : Option Lot) (s : State) :
    (setLot i x s).offsets = s.offsets := rfl
@[simp] theorem setLot_cells (i : SlotId) (x : Option Lot) (s : State) :
    (setLot i x s).cells = s.cells := rfl
@[simp] theorem setLot_nextHoldId (i : SlotId) (x : Option Lot) (s : State) :
    (setLot i x s).nextHoldId = s.nextHoldId := rfl
@[simp] theorem setLot_sweep (i : SlotId) (x : Option Lot) (s : State) :
    (setLot i x s).sweep = s.sweep := rfl
@[simp] theorem setLot_releaseList (i : SlotId) (x : Option Lot) (s : State) :
    (setLot i x s).releaseList = s.releaseList := rfl
@[simp] theorem setLot_pending (i : SlotId) (x : Option Lot) (s : State) :
    (setLot i x s).pending = s.pending := rfl

@[simp] theorem modLot_cellPort (i : SlotId) (g : Lot → Lot) (s : State) :
    (modLot i g s).cellPort = s.cellPort := by unfold modLot; split <;> rfl
@[simp] theorem modLot_floorPort (i : SlotId) (g : Lot → Lot) (s : State) :
    (modLot i g s).floorPort = s.floorPort := by unfold modLot; split <;> rfl
@[simp] theorem modLot_strap (i : SlotId) (g : Lot → Lot) (s : State) :
    (modLot i g s).strap = s.strap := by unfold modLot; split <;> rfl
@[simp] theorem modLot_stations (i : SlotId) (g : Lot → Lot) (s : State) :
    (modLot i g s).stations = s.stations := by unfold modLot; split <;> rfl
@[simp] theorem modLot_link (i : SlotId) (g : Lot → Lot) (s : State) :
    (modLot i g s).link = s.link := by unfold modLot; split <;> rfl
@[simp] theorem modLot_counters (i : SlotId) (g : Lot → Lot) (s : State) :
    (modLot i g s).counters = s.counters := by unfold modLot; split <;> rfl
@[simp] theorem modLot_mono (i : SlotId) (g : Lot → Lot) (s : State) :
    (modLot i g s).mono = s.mono := by unfold modLot; split <;> rfl
@[simp] theorem modLot_offset (i : SlotId) (g : Lot → Lot) (s : State) :
    (modLot i g s).offset = s.offset := by unfold modLot; split <;> rfl
@[simp] theorem modLot_mode (i : SlotId) (g : Lot → Lot) (s : State) :
    (modLot i g s).mode = s.mode := by unfold modLot; split <;> rfl
@[simp] theorem modLot_queue (i : SlotId) (g : Lot → Lot) (s : State) :
    (modLot i g s).queue = s.queue := by unfold modLot; split <;> rfl
@[simp] theorem modLot_nextSeq (i : SlotId) (g : Lot → Lot) (s : State) :
    (modLot i g s).nextSeq = s.nextSeq := by unfold modLot; split <;> rfl
@[simp] theorem modLot_seqExhausted (i : SlotId) (g : Lot → Lot) (s : State) :
    (modLot i g s).seqExhausted = s.seqExhausted := by unfold modLot; split <;> rfl
@[simp] theorem modLot_products (i : SlotId) (g : Lot → Lot) (s : State) :
    (modLot i g s).products = s.products := by unfold modLot; split <;> rfl
@[simp] theorem modLot_programs (i : SlotId) (g : Lot → Lot) (s : State) :
    (modLot i g s).programs = s.programs := by unfold modLot; split <;> rfl
@[simp] theorem modLot_plans (i : SlotId) (g : Lot → Lot) (s : State) :
    (modLot i g s).plans = s.plans := by unfold modLot; split <;> rfl
@[simp] theorem modLot_groups (i : SlotId) (g : Lot → Lot) (s : State) :
    (modLot i g s).groups = s.groups := by unfold modLot; split <;> rfl
@[simp] theorem modLot_offsets (i : SlotId) (g : Lot → Lot) (s : State) :
    (modLot i g s).offsets = s.offsets := by unfold modLot; split <;> rfl
@[simp] theorem modLot_cells (i : SlotId) (g : Lot → Lot) (s : State) :
    (modLot i g s).cells = s.cells := by unfold modLot; split <;> rfl
@[simp] theorem modLot_nextHoldId (i : SlotId) (g : Lot → Lot) (s : State) :
    (modLot i g s).nextHoldId = s.nextHoldId := by unfold modLot; split <;> rfl
@[simp] theorem modLot_sweep (i : SlotId) (g : Lot → Lot) (s : State) :
    (modLot i g s).sweep = s.sweep := by unfold modLot; split <;> rfl
@[simp] theorem modLot_releaseList (i : SlotId) (g : Lot → Lot) (s : State) :
    (modLot i g s).releaseList = s.releaseList := by unfold modLot; split <;> rfl
@[simp] theorem modLot_pending (i : SlotId) (g : Lot → Lot) (s : State) :
    (modLot i g s).pending = s.pending := by unfold modLot; split <;> rfl

@[simp] theorem modProduct_cellPort (p : ProductId) (g : Product → Product) (s : State) :
    (modProduct p g s).cellPort = s.cellPort := by unfold modProduct; split <;> rfl
@[simp] theorem modProduct_floorPort (p : ProductId) (g : Product → Product) (s : State) :
    (modProduct p g s).floorPort = s.floorPort := by unfold modProduct; split <;> rfl
@[simp] theorem modProduct_strap (p : ProductId) (g : Product → Product) (s : State) :
    (modProduct p g s).strap = s.strap := by unfold modProduct; split <;> rfl
@[simp] theorem modProduct_stations (p : ProductId) (g : Product → Product) (s : State) :
    (modProduct p g s).stations = s.stations := by unfold modProduct; split <;> rfl
@[simp] theorem modProduct_link (p : ProductId) (g : Product → Product) (s : State) :
    (modProduct p g s).link = s.link := by unfold modProduct; split <;> rfl
@[simp] theorem modProduct_counters (p : ProductId) (g : Product → Product) (s : State) :
    (modProduct p g s).counters = s.counters := by unfold modProduct; split <;> rfl
@[simp] theorem modProduct_mono (p : ProductId) (g : Product → Product) (s : State) :
    (modProduct p g s).mono = s.mono := by unfold modProduct; split <;> rfl
@[simp] theorem modProduct_offset (p : ProductId) (g : Product → Product) (s : State) :
    (modProduct p g s).offset = s.offset := by unfold modProduct; split <;> rfl
@[simp] theorem modProduct_mode (p : ProductId) (g : Product → Product) (s : State) :
    (modProduct p g s).mode = s.mode := by unfold modProduct; split <;> rfl
@[simp] theorem modProduct_lots (p : ProductId) (g : Product → Product) (s : State) :
    (modProduct p g s).lots = s.lots := by unfold modProduct; split <;> rfl
@[simp] theorem modProduct_queue (p : ProductId) (g : Product → Product) (s : State) :
    (modProduct p g s).queue = s.queue := by unfold modProduct; split <;> rfl
@[simp] theorem modProduct_nextSeq (p : ProductId) (g : Product → Product) (s : State) :
    (modProduct p g s).nextSeq = s.nextSeq := by unfold modProduct; split <;> rfl
@[simp] theorem modProduct_seqExhausted (p : ProductId) (g : Product → Product) (s : State) :
    (modProduct p g s).seqExhausted = s.seqExhausted := by unfold modProduct; split <;> rfl
@[simp] theorem modProduct_programs (p : ProductId) (g : Product → Product) (s : State) :
    (modProduct p g s).programs = s.programs := by unfold modProduct; split <;> rfl
@[simp] theorem modProduct_plans (p : ProductId) (g : Product → Product) (s : State) :
    (modProduct p g s).plans = s.plans := by unfold modProduct; split <;> rfl
@[simp] theorem modProduct_groups (p : ProductId) (g : Product → Product) (s : State) :
    (modProduct p g s).groups = s.groups := by unfold modProduct; split <;> rfl
@[simp] theorem modProduct_offsets (p : ProductId) (g : Product → Product) (s : State) :
    (modProduct p g s).offsets = s.offsets := by unfold modProduct; split <;> rfl
@[simp] theorem modProduct_cells (p : ProductId) (g : Product → Product) (s : State) :
    (modProduct p g s).cells = s.cells := by unfold modProduct; split <;> rfl
@[simp] theorem modProduct_nextHoldId (p : ProductId) (g : Product → Product) (s : State) :
    (modProduct p g s).nextHoldId = s.nextHoldId := by unfold modProduct; split <;> rfl
@[simp] theorem modProduct_sweep (p : ProductId) (g : Product → Product) (s : State) :
    (modProduct p g s).sweep = s.sweep := by unfold modProduct; split <;> rfl
@[simp] theorem modProduct_releaseList (p : ProductId) (g : Product → Product) (s : State) :
    (modProduct p g s).releaseList = s.releaseList := by unfold modProduct; split <;> rfl
@[simp] theorem modProduct_pending (p : ProductId) (g : Product → Product) (s : State) :
    (modProduct p g s).pending = s.pending := by unfold modProduct; split <;> rfl

@[simp] theorem leaveQueue_cellPort (i : SlotId) (s : State) :
    (leaveQueue i s).cellPort = s.cellPort := rfl
@[simp] theorem leaveQueue_floorPort (i : SlotId) (s : State) :
    (leaveQueue i s).floorPort = s.floorPort := rfl
@[simp] theorem leaveQueue_strap (i : SlotId) (s : State) :
    (leaveQueue i s).strap = s.strap := rfl
@[simp] theorem leaveQueue_stations (i : SlotId) (s : State) :
    (leaveQueue i s).stations = s.stations := rfl
@[simp] theorem leaveQueue_link (i : SlotId) (s : State) :
    (leaveQueue i s).link = s.link := rfl
@[simp] theorem leaveQueue_counters (i : SlotId) (s : State) :
    (leaveQueue i s).counters = s.counters := rfl
@[simp] theorem leaveQueue_mono (i : SlotId) (s : State) :
    (leaveQueue i s).mono = s.mono := rfl
@[simp] theorem leaveQueue_offset (i : SlotId) (s : State) :
    (leaveQueue i s).offset = s.offset := rfl
@[simp] theorem leaveQueue_mode (i : SlotId) (s : State) :
    (leaveQueue i s).mode = s.mode := rfl
@[simp] theorem leaveQueue_lots (i : SlotId) (s : State) :
    (leaveQueue i s).lots = s.lots := rfl
@[simp] theorem leaveQueue_nextSeq (i : SlotId) (s : State) :
    (leaveQueue i s).nextSeq = s.nextSeq := rfl
@[simp] theorem leaveQueue_seqExhausted (i : SlotId) (s : State) :
    (leaveQueue i s).seqExhausted = s.seqExhausted := rfl
@[simp] theorem leaveQueue_products (i : SlotId) (s : State) :
    (leaveQueue i s).products = s.products := rfl
@[simp] theorem leaveQueue_programs (i : SlotId) (s : State) :
    (leaveQueue i s).programs = s.programs := rfl
@[simp] theorem leaveQueue_plans (i : SlotId) (s : State) :
    (leaveQueue i s).plans = s.plans := rfl
@[simp] theorem leaveQueue_groups (i : SlotId) (s : State) :
    (leaveQueue i s).groups = s.groups := rfl
@[simp] theorem leaveQueue_offsets (i : SlotId) (s : State) :
    (leaveQueue i s).offsets = s.offsets := rfl
@[simp] theorem leaveQueue_cells (i : SlotId) (s : State) :
    (leaveQueue i s).cells = s.cells := rfl
@[simp] theorem leaveQueue_nextHoldId (i : SlotId) (s : State) :
    (leaveQueue i s).nextHoldId = s.nextHoldId := rfl
@[simp] theorem leaveQueue_sweep (i : SlotId) (s : State) :
    (leaveQueue i s).sweep = s.sweep := rfl
@[simp] theorem leaveQueue_releaseList (i : SlotId) (s : State) :
    (leaveQueue i s).releaseList = s.releaseList := rfl
@[simp] theorem leaveQueue_pending (i : SlotId) (s : State) :
    (leaveQueue i s).pending = s.pending := rfl

@[simp] theorem placeInQueue_cellPort (i : SlotId) (s : State) :
    (placeInQueue i s).cellPort = s.cellPort := by unfold placeInQueue; split <;> rfl
@[simp] theorem placeInQueue_floorPort (i : SlotId) (s : State) :
    (placeInQueue i s).floorPort = s.floorPort := by unfold placeInQueue; split <;> rfl
@[simp] theorem placeInQueue_strap (i : SlotId) (s : State) :
    (placeInQueue i s).strap = s.strap := by unfold placeInQueue; split <;> rfl
@[simp] theorem placeInQueue_stations (i : SlotId) (s : State) :
    (placeInQueue i s).stations = s.stations := by unfold placeInQueue; split <;> rfl
@[simp] theorem placeInQueue_link (i : SlotId) (s : State) :
    (placeInQueue i s).link = s.link := by unfold placeInQueue; split <;> rfl
@[simp] theorem placeInQueue_counters (i : SlotId) (s : State) :
    (placeInQueue i s).counters = s.counters := by unfold placeInQueue; split <;> rfl
@[simp] theorem placeInQueue_mono (i : SlotId) (s : State) :
    (placeInQueue i s).mono = s.mono := by unfold placeInQueue; split <;> rfl
@[simp] theorem placeInQueue_offset (i : SlotId) (s : State) :
    (placeInQueue i s).offset = s.offset := by unfold placeInQueue; split <;> rfl
@[simp] theorem placeInQueue_mode (i : SlotId) (s : State) :
    (placeInQueue i s).mode = s.mode := by unfold placeInQueue; split <;> rfl
@[simp] theorem placeInQueue_lots (i : SlotId) (s : State) :
    (placeInQueue i s).lots = s.lots := by unfold placeInQueue; split <;> rfl
@[simp] theorem placeInQueue_nextSeq (i : SlotId) (s : State) :
    (placeInQueue i s).nextSeq = s.nextSeq := by unfold placeInQueue; split <;> rfl
@[simp] theorem placeInQueue_seqExhausted (i : SlotId) (s : State) :
    (placeInQueue i s).seqExhausted = s.seqExhausted := by unfold placeInQueue; split <;> rfl
@[simp] theorem placeInQueue_products (i : SlotId) (s : State) :
    (placeInQueue i s).products = s.products := by unfold placeInQueue; split <;> rfl
@[simp] theorem placeInQueue_programs (i : SlotId) (s : State) :
    (placeInQueue i s).programs = s.programs := by unfold placeInQueue; split <;> rfl
@[simp] theorem placeInQueue_plans (i : SlotId) (s : State) :
    (placeInQueue i s).plans = s.plans := by unfold placeInQueue; split <;> rfl
@[simp] theorem placeInQueue_groups (i : SlotId) (s : State) :
    (placeInQueue i s).groups = s.groups := by unfold placeInQueue; split <;> rfl
@[simp] theorem placeInQueue_offsets (i : SlotId) (s : State) :
    (placeInQueue i s).offsets = s.offsets := by unfold placeInQueue; split <;> rfl
@[simp] theorem placeInQueue_cells (i : SlotId) (s : State) :
    (placeInQueue i s).cells = s.cells := by unfold placeInQueue; split <;> rfl
@[simp] theorem placeInQueue_nextHoldId (i : SlotId) (s : State) :
    (placeInQueue i s).nextHoldId = s.nextHoldId := by unfold placeInQueue; split <;> rfl
@[simp] theorem placeInQueue_sweep (i : SlotId) (s : State) :
    (placeInQueue i s).sweep = s.sweep := by unfold placeInQueue; split <;> rfl
@[simp] theorem placeInQueue_releaseList (i : SlotId) (s : State) :
    (placeInQueue i s).releaseList = s.releaseList := by unfold placeInQueue; split <;> rfl
@[simp] theorem placeInQueue_pending (i : SlotId) (s : State) :
    (placeInQueue i s).pending = s.pending := by unfold placeInQueue; split <;> rfl

/-! ## Ports and counters -/

@[simp] theorem setPort_strap (p : Port) (x : PortState) (s : State) :
    (setPort p x s).strap = s.strap := by cases p <;> rfl
@[simp] theorem setPort_stations (p : Port) (x : PortState) (s : State) :
    (setPort p x s).stations = s.stations := by cases p <;> rfl
@[simp] theorem setPort_link (p : Port) (x : PortState) (s : State) :
    (setPort p x s).link = s.link := by cases p <;> rfl
@[simp] theorem setPort_counters (p : Port) (x : PortState) (s : State) :
    (setPort p x s).counters = s.counters := by cases p <;> rfl
@[simp] theorem setPort_mono (p : Port) (x : PortState) (s : State) :
    (setPort p x s).mono = s.mono := by cases p <;> rfl
@[simp] theorem setPort_offset (p : Port) (x : PortState) (s : State) :
    (setPort p x s).offset = s.offset := by cases p <;> rfl
@[simp] theorem setPort_mode (p : Port) (x : PortState) (s : State) :
    (setPort p x s).mode = s.mode := by cases p <;> rfl
@[simp] theorem setPort_lots (p : Port) (x : PortState) (s : State) :
    (setPort p x s).lots = s.lots := by cases p <;> rfl
@[simp] theorem setPort_queue (p : Port) (x : PortState) (s : State) :
    (setPort p x s).queue = s.queue := by cases p <;> rfl
@[simp] theorem setPort_nextSeq (p : Port) (x : PortState) (s : State) :
    (setPort p x s).nextSeq = s.nextSeq := by cases p <;> rfl
@[simp] theorem setPort_seqExhausted (p : Port) (x : PortState) (s : State) :
    (setPort p x s).seqExhausted = s.seqExhausted := by cases p <;> rfl
@[simp] theorem setPort_products (p : Port) (x : PortState) (s : State) :
    (setPort p x s).products = s.products := by cases p <;> rfl
@[simp] theorem setPort_programs (p : Port) (x : PortState) (s : State) :
    (setPort p x s).programs = s.programs := by cases p <;> rfl
@[simp] theorem setPort_plans (p : Port) (x : PortState) (s : State) :
    (setPort p x s).plans = s.plans := by cases p <;> rfl
@[simp] theorem setPort_groups (p : Port) (x : PortState) (s : State) :
    (setPort p x s).groups = s.groups := by cases p <;> rfl
@[simp] theorem setPort_offsets (p : Port) (x : PortState) (s : State) :
    (setPort p x s).offsets = s.offsets := by cases p <;> rfl
@[simp] theorem setPort_cells (p : Port) (x : PortState) (s : State) :
    (setPort p x s).cells = s.cells := by cases p <;> rfl
@[simp] theorem setPort_nextHoldId (p : Port) (x : PortState) (s : State) :
    (setPort p x s).nextHoldId = s.nextHoldId := by cases p <;> rfl
@[simp] theorem setPort_sweep (p : Port) (x : PortState) (s : State) :
    (setPort p x s).sweep = s.sweep := by cases p <;> rfl
@[simp] theorem setPort_releaseList (p : Port) (x : PortState) (s : State) :
    (setPort p x s).releaseList = s.releaseList := by cases p <;> rfl
@[simp] theorem setPort_pending (p : Port) (x : PortState) (s : State) :
    (setPort p x s).pending = s.pending := by cases p <;> rfl

@[simp] theorem handTo_strap (p : Port) (o : OutFrame) (s : State) :
    (handTo p o s).strap = s.strap := by cases p <;> rfl
@[simp] theorem handTo_stations (p : Port) (o : OutFrame) (s : State) :
    (handTo p o s).stations = s.stations := by cases p <;> rfl
@[simp] theorem handTo_link (p : Port) (o : OutFrame) (s : State) :
    (handTo p o s).link = s.link := by cases p <;> rfl
@[simp] theorem handTo_counters (p : Port) (o : OutFrame) (s : State) :
    (handTo p o s).counters = s.counters := by cases p <;> rfl
@[simp] theorem handTo_mono (p : Port) (o : OutFrame) (s : State) :
    (handTo p o s).mono = s.mono := by cases p <;> rfl
@[simp] theorem handTo_offset (p : Port) (o : OutFrame) (s : State) :
    (handTo p o s).offset = s.offset := by cases p <;> rfl
@[simp] theorem handTo_mode (p : Port) (o : OutFrame) (s : State) :
    (handTo p o s).mode = s.mode := by cases p <;> rfl
@[simp] theorem handTo_lots (p : Port) (o : OutFrame) (s : State) :
    (handTo p o s).lots = s.lots := by cases p <;> rfl
@[simp] theorem handTo_queue (p : Port) (o : OutFrame) (s : State) :
    (handTo p o s).queue = s.queue := by cases p <;> rfl
@[simp] theorem handTo_nextSeq (p : Port) (o : OutFrame) (s : State) :
    (handTo p o s).nextSeq = s.nextSeq := by cases p <;> rfl
@[simp] theorem handTo_seqExhausted (p : Port) (o : OutFrame) (s : State) :
    (handTo p o s).seqExhausted = s.seqExhausted := by cases p <;> rfl
@[simp] theorem handTo_products (p : Port) (o : OutFrame) (s : State) :
    (handTo p o s).products = s.products := by cases p <;> rfl
@[simp] theorem handTo_programs (p : Port) (o : OutFrame) (s : State) :
    (handTo p o s).programs = s.programs := by cases p <;> rfl
@[simp] theorem handTo_plans (p : Port) (o : OutFrame) (s : State) :
    (handTo p o s).plans = s.plans := by cases p <;> rfl
@[simp] theorem handTo_groups (p : Port) (o : OutFrame) (s : State) :
    (handTo p o s).groups = s.groups := by cases p <;> rfl
@[simp] theorem handTo_offsets (p : Port) (o : OutFrame) (s : State) :
    (handTo p o s).offsets = s.offsets := by cases p <;> rfl
@[simp] theorem handTo_cells (p : Port) (o : OutFrame) (s : State) :
    (handTo p o s).cells = s.cells := by cases p <;> rfl
@[simp] theorem handTo_nextHoldId (p : Port) (o : OutFrame) (s : State) :
    (handTo p o s).nextHoldId = s.nextHoldId := by cases p <;> rfl
@[simp] theorem handTo_sweep (p : Port) (o : OutFrame) (s : State) :
    (handTo p o s).sweep = s.sweep := by cases p <;> rfl
@[simp] theorem handTo_releaseList (p : Port) (o : OutFrame) (s : State) :
    (handTo p o s).releaseList = s.releaseList := by cases p <;> rfl
@[simp] theorem handTo_pending (p : Port) (o : OutFrame) (s : State) :
    (handTo p o s).pending = s.pending := by cases p <;> rfl

@[simp] theorem originate_strap (p : Port) (k : Kind) (d : Addr) (v : Byte) (g : BitVec 16) (n : LotIdent) (b : List Byte) (s : State) :
    (originate p k d v g n b s).strap = s.strap := by unfold originate; simp
@[simp] theorem originate_stations (p : Port) (k : Kind) (d : Addr) (v : Byte) (g : BitVec 16) (n : LotIdent) (b : List Byte) (s : State) :
    (originate p k d v g n b s).stations = s.stations := by unfold originate; simp
@[simp] theorem originate_link (p : Port) (k : Kind) (d : Addr) (v : Byte) (g : BitVec 16) (n : LotIdent) (b : List Byte) (s : State) :
    (originate p k d v g n b s).link = s.link := by unfold originate; simp
@[simp] theorem originate_counters (p : Port) (k : Kind) (d : Addr) (v : Byte) (g : BitVec 16) (n : LotIdent) (b : List Byte) (s : State) :
    (originate p k d v g n b s).counters = s.counters := by unfold originate; simp
@[simp] theorem originate_mono (p : Port) (k : Kind) (d : Addr) (v : Byte) (g : BitVec 16) (n : LotIdent) (b : List Byte) (s : State) :
    (originate p k d v g n b s).mono = s.mono := by unfold originate; simp
@[simp] theorem originate_offset (p : Port) (k : Kind) (d : Addr) (v : Byte) (g : BitVec 16) (n : LotIdent) (b : List Byte) (s : State) :
    (originate p k d v g n b s).offset = s.offset := by unfold originate; simp
@[simp] theorem originate_mode (p : Port) (k : Kind) (d : Addr) (v : Byte) (g : BitVec 16) (n : LotIdent) (b : List Byte) (s : State) :
    (originate p k d v g n b s).mode = s.mode := by unfold originate; simp
@[simp] theorem originate_lots (p : Port) (k : Kind) (d : Addr) (v : Byte) (g : BitVec 16) (n : LotIdent) (b : List Byte) (s : State) :
    (originate p k d v g n b s).lots = s.lots := by unfold originate; simp
@[simp] theorem originate_queue (p : Port) (k : Kind) (d : Addr) (v : Byte) (g : BitVec 16) (n : LotIdent) (b : List Byte) (s : State) :
    (originate p k d v g n b s).queue = s.queue := by unfold originate; simp
@[simp] theorem originate_nextSeq (p : Port) (k : Kind) (d : Addr) (v : Byte) (g : BitVec 16) (n : LotIdent) (b : List Byte) (s : State) :
    (originate p k d v g n b s).nextSeq = s.nextSeq := by unfold originate; simp
@[simp] theorem originate_seqExhausted (p : Port) (k : Kind) (d : Addr) (v : Byte) (g : BitVec 16) (n : LotIdent) (b : List Byte) (s : State) :
    (originate p k d v g n b s).seqExhausted = s.seqExhausted := by unfold originate; simp
@[simp] theorem originate_products (p : Port) (k : Kind) (d : Addr) (v : Byte) (g : BitVec 16) (n : LotIdent) (b : List Byte) (s : State) :
    (originate p k d v g n b s).products = s.products := by unfold originate; simp
@[simp] theorem originate_programs (p : Port) (k : Kind) (d : Addr) (v : Byte) (g : BitVec 16) (n : LotIdent) (b : List Byte) (s : State) :
    (originate p k d v g n b s).programs = s.programs := by unfold originate; simp
@[simp] theorem originate_plans (p : Port) (k : Kind) (d : Addr) (v : Byte) (g : BitVec 16) (n : LotIdent) (b : List Byte) (s : State) :
    (originate p k d v g n b s).plans = s.plans := by unfold originate; simp
@[simp] theorem originate_groups (p : Port) (k : Kind) (d : Addr) (v : Byte) (g : BitVec 16) (n : LotIdent) (b : List Byte) (s : State) :
    (originate p k d v g n b s).groups = s.groups := by unfold originate; simp
@[simp] theorem originate_offsets (p : Port) (k : Kind) (d : Addr) (v : Byte) (g : BitVec 16) (n : LotIdent) (b : List Byte) (s : State) :
    (originate p k d v g n b s).offsets = s.offsets := by unfold originate; simp
@[simp] theorem originate_cells (p : Port) (k : Kind) (d : Addr) (v : Byte) (g : BitVec 16) (n : LotIdent) (b : List Byte) (s : State) :
    (originate p k d v g n b s).cells = s.cells := by unfold originate; simp
@[simp] theorem originate_nextHoldId (p : Port) (k : Kind) (d : Addr) (v : Byte) (g : BitVec 16) (n : LotIdent) (b : List Byte) (s : State) :
    (originate p k d v g n b s).nextHoldId = s.nextHoldId := by unfold originate; simp
@[simp] theorem originate_sweep (p : Port) (k : Kind) (d : Addr) (v : Byte) (g : BitVec 16) (n : LotIdent) (b : List Byte) (s : State) :
    (originate p k d v g n b s).sweep = s.sweep := by unfold originate; simp
@[simp] theorem originate_releaseList (p : Port) (k : Kind) (d : Addr) (v : Byte) (g : BitVec 16) (n : LotIdent) (b : List Byte) (s : State) :
    (originate p k d v g n b s).releaseList = s.releaseList := by unfold originate; simp
@[simp] theorem originate_pending (p : Port) (k : Kind) (d : Addr) (v : Byte) (g : BitVec 16) (n : LotIdent) (b : List Byte) (s : State) :
    (originate p k d v g n b s).pending = s.pending := by unfold originate; simp

@[simp] theorem forward_strap (k : Byte) (lead : List Byte) (f : Frame) (s : State) :
    (forward k lead f s).strap = s.strap := by unfold forward; simp
@[simp] theorem forward_stations (k : Byte) (lead : List Byte) (f : Frame) (s : State) :
    (forward k lead f s).stations = s.stations := by unfold forward; simp
@[simp] theorem forward_link (k : Byte) (lead : List Byte) (f : Frame) (s : State) :
    (forward k lead f s).link = s.link := by unfold forward; simp
@[simp] theorem forward_counters (k : Byte) (lead : List Byte) (f : Frame) (s : State) :
    (forward k lead f s).counters = s.counters := by unfold forward; simp
@[simp] theorem forward_mono (k : Byte) (lead : List Byte) (f : Frame) (s : State) :
    (forward k lead f s).mono = s.mono := by unfold forward; simp
@[simp] theorem forward_offset (k : Byte) (lead : List Byte) (f : Frame) (s : State) :
    (forward k lead f s).offset = s.offset := by unfold forward; simp
@[simp] theorem forward_mode (k : Byte) (lead : List Byte) (f : Frame) (s : State) :
    (forward k lead f s).mode = s.mode := by unfold forward; simp
@[simp] theorem forward_lots (k : Byte) (lead : List Byte) (f : Frame) (s : State) :
    (forward k lead f s).lots = s.lots := by unfold forward; simp
@[simp] theorem forward_queue (k : Byte) (lead : List Byte) (f : Frame) (s : State) :
    (forward k lead f s).queue = s.queue := by unfold forward; simp
@[simp] theorem forward_nextSeq (k : Byte) (lead : List Byte) (f : Frame) (s : State) :
    (forward k lead f s).nextSeq = s.nextSeq := by unfold forward; simp
@[simp] theorem forward_seqExhausted (k : Byte) (lead : List Byte) (f : Frame) (s : State) :
    (forward k lead f s).seqExhausted = s.seqExhausted := by unfold forward; simp
@[simp] theorem forward_products (k : Byte) (lead : List Byte) (f : Frame) (s : State) :
    (forward k lead f s).products = s.products := by unfold forward; simp
@[simp] theorem forward_programs (k : Byte) (lead : List Byte) (f : Frame) (s : State) :
    (forward k lead f s).programs = s.programs := by unfold forward; simp
@[simp] theorem forward_plans (k : Byte) (lead : List Byte) (f : Frame) (s : State) :
    (forward k lead f s).plans = s.plans := by unfold forward; simp
@[simp] theorem forward_groups (k : Byte) (lead : List Byte) (f : Frame) (s : State) :
    (forward k lead f s).groups = s.groups := by unfold forward; simp
@[simp] theorem forward_offsets (k : Byte) (lead : List Byte) (f : Frame) (s : State) :
    (forward k lead f s).offsets = s.offsets := by unfold forward; simp
@[simp] theorem forward_cells (k : Byte) (lead : List Byte) (f : Frame) (s : State) :
    (forward k lead f s).cells = s.cells := by unfold forward; simp
@[simp] theorem forward_nextHoldId (k : Byte) (lead : List Byte) (f : Frame) (s : State) :
    (forward k lead f s).nextHoldId = s.nextHoldId := by unfold forward; simp
@[simp] theorem forward_sweep (k : Byte) (lead : List Byte) (f : Frame) (s : State) :
    (forward k lead f s).sweep = s.sweep := by unfold forward; simp
@[simp] theorem forward_releaseList (k : Byte) (lead : List Byte) (f : Frame) (s : State) :
    (forward k lead f s).releaseList = s.releaseList := by unfold forward; simp
@[simp] theorem forward_pending (k : Byte) (lead : List Byte) (f : Frame) (s : State) :
    (forward k lead f s).pending = s.pending := by unfold forward; simp

@[simp] theorem countBy_cellPort (k : Counter) (n : Nat) (s : State) :
    (countBy k n s).cellPort = s.cellPort := rfl
@[simp] theorem countBy_floorPort (k : Counter) (n : Nat) (s : State) :
    (countBy k n s).floorPort = s.floorPort := rfl
@[simp] theorem countBy_strap (k : Counter) (n : Nat) (s : State) :
    (countBy k n s).strap = s.strap := rfl
@[simp] theorem countBy_stations (k : Counter) (n : Nat) (s : State) :
    (countBy k n s).stations = s.stations := rfl
@[simp] theorem countBy_link (k : Counter) (n : Nat) (s : State) :
    (countBy k n s).link = s.link := rfl
@[simp] theorem countBy_mono (k : Counter) (n : Nat) (s : State) :
    (countBy k n s).mono = s.mono := rfl
@[simp] theorem countBy_offset (k : Counter) (n : Nat) (s : State) :
    (countBy k n s).offset = s.offset := rfl
@[simp] theorem countBy_mode (k : Counter) (n : Nat) (s : State) :
    (countBy k n s).mode = s.mode := rfl
@[simp] theorem countBy_lots (k : Counter) (n : Nat) (s : State) :
    (countBy k n s).lots = s.lots := rfl
@[simp] theorem countBy_queue (k : Counter) (n : Nat) (s : State) :
    (countBy k n s).queue = s.queue := rfl
@[simp] theorem countBy_nextSeq (k : Counter) (n : Nat) (s : State) :
    (countBy k n s).nextSeq = s.nextSeq := rfl
@[simp] theorem countBy_seqExhausted (k : Counter) (n : Nat) (s : State) :
    (countBy k n s).seqExhausted = s.seqExhausted := rfl
@[simp] theorem countBy_products (k : Counter) (n : Nat) (s : State) :
    (countBy k n s).products = s.products := rfl
@[simp] theorem countBy_programs (k : Counter) (n : Nat) (s : State) :
    (countBy k n s).programs = s.programs := rfl
@[simp] theorem countBy_plans (k : Counter) (n : Nat) (s : State) :
    (countBy k n s).plans = s.plans := rfl
@[simp] theorem countBy_groups (k : Counter) (n : Nat) (s : State) :
    (countBy k n s).groups = s.groups := rfl
@[simp] theorem countBy_offsets (k : Counter) (n : Nat) (s : State) :
    (countBy k n s).offsets = s.offsets := rfl
@[simp] theorem countBy_cells (k : Counter) (n : Nat) (s : State) :
    (countBy k n s).cells = s.cells := rfl
@[simp] theorem countBy_nextHoldId (k : Counter) (n : Nat) (s : State) :
    (countBy k n s).nextHoldId = s.nextHoldId := rfl
@[simp] theorem countBy_sweep (k : Counter) (n : Nat) (s : State) :
    (countBy k n s).sweep = s.sweep := rfl
@[simp] theorem countBy_releaseList (k : Counter) (n : Nat) (s : State) :
    (countBy k n s).releaseList = s.releaseList := rfl
@[simp] theorem countBy_pending (k : Counter) (n : Nat) (s : State) :
    (countBy k n s).pending = s.pending := rfl

@[simp] theorem count_cellPort (k : Counter) (s : State) :
    (count k s).cellPort = s.cellPort := rfl
@[simp] theorem count_floorPort (k : Counter) (s : State) :
    (count k s).floorPort = s.floorPort := rfl
@[simp] theorem count_strap (k : Counter) (s : State) :
    (count k s).strap = s.strap := rfl
@[simp] theorem count_stations (k : Counter) (s : State) :
    (count k s).stations = s.stations := rfl
@[simp] theorem count_link (k : Counter) (s : State) :
    (count k s).link = s.link := rfl
@[simp] theorem count_mono (k : Counter) (s : State) :
    (count k s).mono = s.mono := rfl
@[simp] theorem count_offset (k : Counter) (s : State) :
    (count k s).offset = s.offset := rfl
@[simp] theorem count_mode (k : Counter) (s : State) :
    (count k s).mode = s.mode := rfl
@[simp] theorem count_lots (k : Counter) (s : State) :
    (count k s).lots = s.lots := rfl
@[simp] theorem count_queue (k : Counter) (s : State) :
    (count k s).queue = s.queue := rfl
@[simp] theorem count_nextSeq (k : Counter) (s : State) :
    (count k s).nextSeq = s.nextSeq := rfl
@[simp] theorem count_seqExhausted (k : Counter) (s : State) :
    (count k s).seqExhausted = s.seqExhausted := rfl
@[simp] theorem count_products (k : Counter) (s : State) :
    (count k s).products = s.products := rfl
@[simp] theorem count_programs (k : Counter) (s : State) :
    (count k s).programs = s.programs := rfl
@[simp] theorem count_plans (k : Counter) (s : State) :
    (count k s).plans = s.plans := rfl
@[simp] theorem count_groups (k : Counter) (s : State) :
    (count k s).groups = s.groups := rfl
@[simp] theorem count_offsets (k : Counter) (s : State) :
    (count k s).offsets = s.offsets := rfl
@[simp] theorem count_cells (k : Counter) (s : State) :
    (count k s).cells = s.cells := rfl
@[simp] theorem count_nextHoldId (k : Counter) (s : State) :
    (count k s).nextHoldId = s.nextHoldId := rfl
@[simp] theorem count_sweep (k : Counter) (s : State) :
    (count k s).sweep = s.sweep := rfl
@[simp] theorem count_releaseList (k : Counter) (s : State) :
    (count k s).releaseList = s.releaseList := rfl
@[simp] theorem count_pending (k : Counter) (s : State) :
    (count k s).pending = s.pending := rfl

@[simp] theorem notice_strap (k : NoticeKind) (n : LotIdent) (b : List Byte) (s : State) :
    (notice k n b s).strap = s.strap := by unfold notice; split <;> simp
@[simp] theorem notice_stations (k : NoticeKind) (n : LotIdent) (b : List Byte) (s : State) :
    (notice k n b s).stations = s.stations := by unfold notice; split <;> simp
@[simp] theorem notice_link (k : NoticeKind) (n : LotIdent) (b : List Byte) (s : State) :
    (notice k n b s).link = s.link := by unfold notice; split <;> simp
@[simp] theorem notice_counters (k : NoticeKind) (n : LotIdent) (b : List Byte) (s : State) :
    (notice k n b s).counters = s.counters := by unfold notice; split <;> simp
@[simp] theorem notice_mono (k : NoticeKind) (n : LotIdent) (b : List Byte) (s : State) :
    (notice k n b s).mono = s.mono := by unfold notice; split <;> simp
@[simp] theorem notice_offset (k : NoticeKind) (n : LotIdent) (b : List Byte) (s : State) :
    (notice k n b s).offset = s.offset := by unfold notice; split <;> simp
@[simp] theorem notice_mode (k : NoticeKind) (n : LotIdent) (b : List Byte) (s : State) :
    (notice k n b s).mode = s.mode := by unfold notice; split <;> simp
@[simp] theorem notice_lots (k : NoticeKind) (n : LotIdent) (b : List Byte) (s : State) :
    (notice k n b s).lots = s.lots := by unfold notice; split <;> simp
@[simp] theorem notice_queue (k : NoticeKind) (n : LotIdent) (b : List Byte) (s : State) :
    (notice k n b s).queue = s.queue := by unfold notice; split <;> simp
@[simp] theorem notice_nextSeq (k : NoticeKind) (n : LotIdent) (b : List Byte) (s : State) :
    (notice k n b s).nextSeq = s.nextSeq := by unfold notice; split <;> simp
@[simp] theorem notice_seqExhausted (k : NoticeKind) (n : LotIdent) (b : List Byte) (s : State) :
    (notice k n b s).seqExhausted = s.seqExhausted := by unfold notice; split <;> simp
@[simp] theorem notice_products (k : NoticeKind) (n : LotIdent) (b : List Byte) (s : State) :
    (notice k n b s).products = s.products := by unfold notice; split <;> simp
@[simp] theorem notice_programs (k : NoticeKind) (n : LotIdent) (b : List Byte) (s : State) :
    (notice k n b s).programs = s.programs := by unfold notice; split <;> simp
@[simp] theorem notice_plans (k : NoticeKind) (n : LotIdent) (b : List Byte) (s : State) :
    (notice k n b s).plans = s.plans := by unfold notice; split <;> simp
@[simp] theorem notice_groups (k : NoticeKind) (n : LotIdent) (b : List Byte) (s : State) :
    (notice k n b s).groups = s.groups := by unfold notice; split <;> simp
@[simp] theorem notice_offsets (k : NoticeKind) (n : LotIdent) (b : List Byte) (s : State) :
    (notice k n b s).offsets = s.offsets := by unfold notice; split <;> simp
@[simp] theorem notice_cells (k : NoticeKind) (n : LotIdent) (b : List Byte) (s : State) :
    (notice k n b s).cells = s.cells := by unfold notice; split <;> simp
@[simp] theorem notice_nextHoldId (k : NoticeKind) (n : LotIdent) (b : List Byte) (s : State) :
    (notice k n b s).nextHoldId = s.nextHoldId := by unfold notice; split <;> simp
@[simp] theorem notice_sweep (k : NoticeKind) (n : LotIdent) (b : List Byte) (s : State) :
    (notice k n b s).sweep = s.sweep := by unfold notice; split <;> simp
@[simp] theorem notice_releaseList (k : NoticeKind) (n : LotIdent) (b : List Byte) (s : State) :
    (notice k n b s).releaseList = s.releaseList := by unfold notice; split <;> simp
@[simp] theorem notice_pending (k : NoticeKind) (n : LotIdent) (b : List Byte) (s : State) :
    (notice k n b s).pending = s.pending := by unfold notice; split <;> simp

@[simp] theorem answer_strap (a : Asker) (n : List Byte) (code : AnswerCode) (b : List Byte) (s : State) :
    (answer a n code b s).strap = s.strap := by unfold answer; simp
@[simp] theorem answer_stations (a : Asker) (n : List Byte) (code : AnswerCode) (b : List Byte) (s : State) :
    (answer a n code b s).stations = s.stations := by unfold answer; simp
@[simp] theorem answer_link (a : Asker) (n : List Byte) (code : AnswerCode) (b : List Byte) (s : State) :
    (answer a n code b s).link = s.link := by unfold answer; simp
@[simp] theorem answer_counters (a : Asker) (n : List Byte) (code : AnswerCode) (b : List Byte) (s : State) :
    (answer a n code b s).counters = s.counters := by unfold answer; simp
@[simp] theorem answer_mono (a : Asker) (n : List Byte) (code : AnswerCode) (b : List Byte) (s : State) :
    (answer a n code b s).mono = s.mono := by unfold answer; simp
@[simp] theorem answer_offset (a : Asker) (n : List Byte) (code : AnswerCode) (b : List Byte) (s : State) :
    (answer a n code b s).offset = s.offset := by unfold answer; simp
@[simp] theorem answer_mode (a : Asker) (n : List Byte) (code : AnswerCode) (b : List Byte) (s : State) :
    (answer a n code b s).mode = s.mode := by unfold answer; simp
@[simp] theorem answer_lots (a : Asker) (n : List Byte) (code : AnswerCode) (b : List Byte) (s : State) :
    (answer a n code b s).lots = s.lots := by unfold answer; simp
@[simp] theorem answer_queue (a : Asker) (n : List Byte) (code : AnswerCode) (b : List Byte) (s : State) :
    (answer a n code b s).queue = s.queue := by unfold answer; simp
@[simp] theorem answer_nextSeq (a : Asker) (n : List Byte) (code : AnswerCode) (b : List Byte) (s : State) :
    (answer a n code b s).nextSeq = s.nextSeq := by unfold answer; simp
@[simp] theorem answer_seqExhausted (a : Asker) (n : List Byte) (code : AnswerCode) (b : List Byte) (s : State) :
    (answer a n code b s).seqExhausted = s.seqExhausted := by unfold answer; simp
@[simp] theorem answer_products (a : Asker) (n : List Byte) (code : AnswerCode) (b : List Byte) (s : State) :
    (answer a n code b s).products = s.products := by unfold answer; simp
@[simp] theorem answer_programs (a : Asker) (n : List Byte) (code : AnswerCode) (b : List Byte) (s : State) :
    (answer a n code b s).programs = s.programs := by unfold answer; simp
@[simp] theorem answer_plans (a : Asker) (n : List Byte) (code : AnswerCode) (b : List Byte) (s : State) :
    (answer a n code b s).plans = s.plans := by unfold answer; simp
@[simp] theorem answer_groups (a : Asker) (n : List Byte) (code : AnswerCode) (b : List Byte) (s : State) :
    (answer a n code b s).groups = s.groups := by unfold answer; simp
@[simp] theorem answer_offsets (a : Asker) (n : List Byte) (code : AnswerCode) (b : List Byte) (s : State) :
    (answer a n code b s).offsets = s.offsets := by unfold answer; simp
@[simp] theorem answer_cells (a : Asker) (n : List Byte) (code : AnswerCode) (b : List Byte) (s : State) :
    (answer a n code b s).cells = s.cells := by unfold answer; simp
@[simp] theorem answer_nextHoldId (a : Asker) (n : List Byte) (code : AnswerCode) (b : List Byte) (s : State) :
    (answer a n code b s).nextHoldId = s.nextHoldId := by unfold answer; simp
@[simp] theorem answer_sweep (a : Asker) (n : List Byte) (code : AnswerCode) (b : List Byte) (s : State) :
    (answer a n code b s).sweep = s.sweep := by unfold answer; simp
@[simp] theorem answer_releaseList (a : Asker) (n : List Byte) (code : AnswerCode) (b : List Byte) (s : State) :
    (answer a n code b s).releaseList = s.releaseList := by unfold answer; simp
@[simp] theorem answer_pending (a : Asker) (n : List Byte) (code : AnswerCode) (b : List Byte) (s : State) :
    (answer a n code b s).pending = s.pending := by unfold answer; simp

@[simp] theorem reply_strap (c : Command) (f : Frame) (code : AnswerCode) (b : List Byte) (s : State) :
    (reply c f code b s).strap = s.strap := by unfold reply; simp
@[simp] theorem reply_stations (c : Command) (f : Frame) (code : AnswerCode) (b : List Byte) (s : State) :
    (reply c f code b s).stations = s.stations := by unfold reply; simp
@[simp] theorem reply_link (c : Command) (f : Frame) (code : AnswerCode) (b : List Byte) (s : State) :
    (reply c f code b s).link = s.link := by unfold reply; simp
@[simp] theorem reply_counters (c : Command) (f : Frame) (code : AnswerCode) (b : List Byte) (s : State) :
    (reply c f code b s).counters = s.counters := by unfold reply; simp
@[simp] theorem reply_mono (c : Command) (f : Frame) (code : AnswerCode) (b : List Byte) (s : State) :
    (reply c f code b s).mono = s.mono := by unfold reply; simp
@[simp] theorem reply_offset (c : Command) (f : Frame) (code : AnswerCode) (b : List Byte) (s : State) :
    (reply c f code b s).offset = s.offset := by unfold reply; simp
@[simp] theorem reply_mode (c : Command) (f : Frame) (code : AnswerCode) (b : List Byte) (s : State) :
    (reply c f code b s).mode = s.mode := by unfold reply; simp
@[simp] theorem reply_lots (c : Command) (f : Frame) (code : AnswerCode) (b : List Byte) (s : State) :
    (reply c f code b s).lots = s.lots := by unfold reply; simp
@[simp] theorem reply_queue (c : Command) (f : Frame) (code : AnswerCode) (b : List Byte) (s : State) :
    (reply c f code b s).queue = s.queue := by unfold reply; simp
@[simp] theorem reply_nextSeq (c : Command) (f : Frame) (code : AnswerCode) (b : List Byte) (s : State) :
    (reply c f code b s).nextSeq = s.nextSeq := by unfold reply; simp
@[simp] theorem reply_seqExhausted (c : Command) (f : Frame) (code : AnswerCode) (b : List Byte) (s : State) :
    (reply c f code b s).seqExhausted = s.seqExhausted := by unfold reply; simp
@[simp] theorem reply_products (c : Command) (f : Frame) (code : AnswerCode) (b : List Byte) (s : State) :
    (reply c f code b s).products = s.products := by unfold reply; simp
@[simp] theorem reply_programs (c : Command) (f : Frame) (code : AnswerCode) (b : List Byte) (s : State) :
    (reply c f code b s).programs = s.programs := by unfold reply; simp
@[simp] theorem reply_plans (c : Command) (f : Frame) (code : AnswerCode) (b : List Byte) (s : State) :
    (reply c f code b s).plans = s.plans := by unfold reply; simp
@[simp] theorem reply_groups (c : Command) (f : Frame) (code : AnswerCode) (b : List Byte) (s : State) :
    (reply c f code b s).groups = s.groups := by unfold reply; simp
@[simp] theorem reply_offsets (c : Command) (f : Frame) (code : AnswerCode) (b : List Byte) (s : State) :
    (reply c f code b s).offsets = s.offsets := by unfold reply; simp
@[simp] theorem reply_cells (c : Command) (f : Frame) (code : AnswerCode) (b : List Byte) (s : State) :
    (reply c f code b s).cells = s.cells := by unfold reply; simp
@[simp] theorem reply_nextHoldId (c : Command) (f : Frame) (code : AnswerCode) (b : List Byte) (s : State) :
    (reply c f code b s).nextHoldId = s.nextHoldId := by unfold reply; simp
@[simp] theorem reply_sweep (c : Command) (f : Frame) (code : AnswerCode) (b : List Byte) (s : State) :
    (reply c f code b s).sweep = s.sweep := by unfold reply; simp
@[simp] theorem reply_releaseList (c : Command) (f : Frame) (code : AnswerCode) (b : List Byte) (s : State) :
    (reply c f code b s).releaseList = s.releaseList := by unfold reply; simp
@[simp] theorem reply_pending (c : Command) (f : Frame) (code : AnswerCode) (b : List Byte) (s : State) :
    (reply c f code b s).pending = s.pending := by unfold reply; simp

@[simp] theorem sendCommand_strap (k : Kind) (d : Option Addr) (n : LotIdent) (b : List Byte) (s : State) :
    (sendCommand k d n b s).strap = s.strap := by unfold sendCommand; split <;> simp
@[simp] theorem sendCommand_stations (k : Kind) (d : Option Addr) (n : LotIdent) (b : List Byte) (s : State) :
    (sendCommand k d n b s).stations = s.stations := by unfold sendCommand; split <;> simp
@[simp] theorem sendCommand_link (k : Kind) (d : Option Addr) (n : LotIdent) (b : List Byte) (s : State) :
    (sendCommand k d n b s).link = s.link := by unfold sendCommand; split <;> simp
@[simp] theorem sendCommand_counters (k : Kind) (d : Option Addr) (n : LotIdent) (b : List Byte) (s : State) :
    (sendCommand k d n b s).counters = s.counters := by unfold sendCommand; split <;> simp
@[simp] theorem sendCommand_mono (k : Kind) (d : Option Addr) (n : LotIdent) (b : List Byte) (s : State) :
    (sendCommand k d n b s).mono = s.mono := by unfold sendCommand; split <;> simp
@[simp] theorem sendCommand_offset (k : Kind) (d : Option Addr) (n : LotIdent) (b : List Byte) (s : State) :
    (sendCommand k d n b s).offset = s.offset := by unfold sendCommand; split <;> simp
@[simp] theorem sendCommand_mode (k : Kind) (d : Option Addr) (n : LotIdent) (b : List Byte) (s : State) :
    (sendCommand k d n b s).mode = s.mode := by unfold sendCommand; split <;> simp
@[simp] theorem sendCommand_lots (k : Kind) (d : Option Addr) (n : LotIdent) (b : List Byte) (s : State) :
    (sendCommand k d n b s).lots = s.lots := by unfold sendCommand; split <;> simp
@[simp] theorem sendCommand_queue (k : Kind) (d : Option Addr) (n : LotIdent) (b : List Byte) (s : State) :
    (sendCommand k d n b s).queue = s.queue := by unfold sendCommand; split <;> simp
@[simp] theorem sendCommand_nextSeq (k : Kind) (d : Option Addr) (n : LotIdent) (b : List Byte) (s : State) :
    (sendCommand k d n b s).nextSeq = s.nextSeq := by unfold sendCommand; split <;> simp
@[simp] theorem sendCommand_seqExhausted (k : Kind) (d : Option Addr) (n : LotIdent) (b : List Byte) (s : State) :
    (sendCommand k d n b s).seqExhausted = s.seqExhausted := by unfold sendCommand; split <;> simp
@[simp] theorem sendCommand_products (k : Kind) (d : Option Addr) (n : LotIdent) (b : List Byte) (s : State) :
    (sendCommand k d n b s).products = s.products := by unfold sendCommand; split <;> simp
@[simp] theorem sendCommand_programs (k : Kind) (d : Option Addr) (n : LotIdent) (b : List Byte) (s : State) :
    (sendCommand k d n b s).programs = s.programs := by unfold sendCommand; split <;> simp
@[simp] theorem sendCommand_plans (k : Kind) (d : Option Addr) (n : LotIdent) (b : List Byte) (s : State) :
    (sendCommand k d n b s).plans = s.plans := by unfold sendCommand; split <;> simp
@[simp] theorem sendCommand_groups (k : Kind) (d : Option Addr) (n : LotIdent) (b : List Byte) (s : State) :
    (sendCommand k d n b s).groups = s.groups := by unfold sendCommand; split <;> simp
@[simp] theorem sendCommand_offsets (k : Kind) (d : Option Addr) (n : LotIdent) (b : List Byte) (s : State) :
    (sendCommand k d n b s).offsets = s.offsets := by unfold sendCommand; split <;> simp
@[simp] theorem sendCommand_cells (k : Kind) (d : Option Addr) (n : LotIdent) (b : List Byte) (s : State) :
    (sendCommand k d n b s).cells = s.cells := by unfold sendCommand; split <;> simp
@[simp] theorem sendCommand_nextHoldId (k : Kind) (d : Option Addr) (n : LotIdent) (b : List Byte) (s : State) :
    (sendCommand k d n b s).nextHoldId = s.nextHoldId := by unfold sendCommand; split <;> simp
@[simp] theorem sendCommand_sweep (k : Kind) (d : Option Addr) (n : LotIdent) (b : List Byte) (s : State) :
    (sendCommand k d n b s).sweep = s.sweep := by unfold sendCommand; split <;> simp
@[simp] theorem sendCommand_releaseList (k : Kind) (d : Option Addr) (n : LotIdent) (b : List Byte) (s : State) :
    (sendCommand k d n b s).releaseList = s.releaseList := by unfold sendCommand; split <;> simp
@[simp] theorem sendCommand_pending (k : Kind) (d : Option Addr) (n : LotIdent) (b : List Byte) (s : State) :
    (sendCommand k d n b s).pending = s.pending := by unfold sendCommand; split <;> simp

@[simp] theorem sendBoth_strap (k : Kind) (c : CellId) (n : LotIdent) (b : List Byte) (s : State) :
    (sendBoth k c n b s).strap = s.strap := by unfold sendBoth; simp
@[simp] theorem sendBoth_stations (k : Kind) (c : CellId) (n : LotIdent) (b : List Byte) (s : State) :
    (sendBoth k c n b s).stations = s.stations := by unfold sendBoth; simp
@[simp] theorem sendBoth_link (k : Kind) (c : CellId) (n : LotIdent) (b : List Byte) (s : State) :
    (sendBoth k c n b s).link = s.link := by unfold sendBoth; simp
@[simp] theorem sendBoth_counters (k : Kind) (c : CellId) (n : LotIdent) (b : List Byte) (s : State) :
    (sendBoth k c n b s).counters = s.counters := by unfold sendBoth; simp
@[simp] theorem sendBoth_mono (k : Kind) (c : CellId) (n : LotIdent) (b : List Byte) (s : State) :
    (sendBoth k c n b s).mono = s.mono := by unfold sendBoth; simp
@[simp] theorem sendBoth_offset (k : Kind) (c : CellId) (n : LotIdent) (b : List Byte) (s : State) :
    (sendBoth k c n b s).offset = s.offset := by unfold sendBoth; simp
@[simp] theorem sendBoth_mode (k : Kind) (c : CellId) (n : LotIdent) (b : List Byte) (s : State) :
    (sendBoth k c n b s).mode = s.mode := by unfold sendBoth; simp
@[simp] theorem sendBoth_lots (k : Kind) (c : CellId) (n : LotIdent) (b : List Byte) (s : State) :
    (sendBoth k c n b s).lots = s.lots := by unfold sendBoth; simp
@[simp] theorem sendBoth_queue (k : Kind) (c : CellId) (n : LotIdent) (b : List Byte) (s : State) :
    (sendBoth k c n b s).queue = s.queue := by unfold sendBoth; simp
@[simp] theorem sendBoth_nextSeq (k : Kind) (c : CellId) (n : LotIdent) (b : List Byte) (s : State) :
    (sendBoth k c n b s).nextSeq = s.nextSeq := by unfold sendBoth; simp
@[simp] theorem sendBoth_seqExhausted (k : Kind) (c : CellId) (n : LotIdent) (b : List Byte) (s : State) :
    (sendBoth k c n b s).seqExhausted = s.seqExhausted := by unfold sendBoth; simp
@[simp] theorem sendBoth_products (k : Kind) (c : CellId) (n : LotIdent) (b : List Byte) (s : State) :
    (sendBoth k c n b s).products = s.products := by unfold sendBoth; simp
@[simp] theorem sendBoth_programs (k : Kind) (c : CellId) (n : LotIdent) (b : List Byte) (s : State) :
    (sendBoth k c n b s).programs = s.programs := by unfold sendBoth; simp
@[simp] theorem sendBoth_plans (k : Kind) (c : CellId) (n : LotIdent) (b : List Byte) (s : State) :
    (sendBoth k c n b s).plans = s.plans := by unfold sendBoth; simp
@[simp] theorem sendBoth_groups (k : Kind) (c : CellId) (n : LotIdent) (b : List Byte) (s : State) :
    (sendBoth k c n b s).groups = s.groups := by unfold sendBoth; simp
@[simp] theorem sendBoth_offsets (k : Kind) (c : CellId) (n : LotIdent) (b : List Byte) (s : State) :
    (sendBoth k c n b s).offsets = s.offsets := by unfold sendBoth; simp
@[simp] theorem sendBoth_cells (k : Kind) (c : CellId) (n : LotIdent) (b : List Byte) (s : State) :
    (sendBoth k c n b s).cells = s.cells := by unfold sendBoth; simp
@[simp] theorem sendBoth_nextHoldId (k : Kind) (c : CellId) (n : LotIdent) (b : List Byte) (s : State) :
    (sendBoth k c n b s).nextHoldId = s.nextHoldId := by unfold sendBoth; simp
@[simp] theorem sendBoth_sweep (k : Kind) (c : CellId) (n : LotIdent) (b : List Byte) (s : State) :
    (sendBoth k c n b s).sweep = s.sweep := by unfold sendBoth; simp
@[simp] theorem sendBoth_releaseList (k : Kind) (c : CellId) (n : LotIdent) (b : List Byte) (s : State) :
    (sendBoth k c n b s).releaseList = s.releaseList := by unfold sendBoth; simp
@[simp] theorem sendBoth_pending (k : Kind) (c : CellId) (n : LotIdent) (b : List Byte) (s : State) :
    (sendBoth k c n b s).pending = s.pending := by unfold sendBoth; simp

@[simp] theorem sendFetch_strap (n : LotIdent) (b : List Byte) (s : State) :
    (sendFetch n b s).strap = s.strap := by unfold sendFetch; split <;> simp
@[simp] theorem sendFetch_stations (n : LotIdent) (b : List Byte) (s : State) :
    (sendFetch n b s).stations = s.stations := by unfold sendFetch; split <;> simp
@[simp] theorem sendFetch_link (n : LotIdent) (b : List Byte) (s : State) :
    (sendFetch n b s).link = s.link := by unfold sendFetch; split <;> simp
@[simp] theorem sendFetch_counters (n : LotIdent) (b : List Byte) (s : State) :
    (sendFetch n b s).counters = s.counters := by unfold sendFetch; split <;> simp
@[simp] theorem sendFetch_mono (n : LotIdent) (b : List Byte) (s : State) :
    (sendFetch n b s).mono = s.mono := by unfold sendFetch; split <;> simp
@[simp] theorem sendFetch_offset (n : LotIdent) (b : List Byte) (s : State) :
    (sendFetch n b s).offset = s.offset := by unfold sendFetch; split <;> simp
@[simp] theorem sendFetch_mode (n : LotIdent) (b : List Byte) (s : State) :
    (sendFetch n b s).mode = s.mode := by unfold sendFetch; split <;> simp
@[simp] theorem sendFetch_lots (n : LotIdent) (b : List Byte) (s : State) :
    (sendFetch n b s).lots = s.lots := by unfold sendFetch; split <;> simp
@[simp] theorem sendFetch_queue (n : LotIdent) (b : List Byte) (s : State) :
    (sendFetch n b s).queue = s.queue := by unfold sendFetch; split <;> simp
@[simp] theorem sendFetch_nextSeq (n : LotIdent) (b : List Byte) (s : State) :
    (sendFetch n b s).nextSeq = s.nextSeq := by unfold sendFetch; split <;> simp
@[simp] theorem sendFetch_seqExhausted (n : LotIdent) (b : List Byte) (s : State) :
    (sendFetch n b s).seqExhausted = s.seqExhausted := by unfold sendFetch; split <;> simp
@[simp] theorem sendFetch_products (n : LotIdent) (b : List Byte) (s : State) :
    (sendFetch n b s).products = s.products := by unfold sendFetch; split <;> simp
@[simp] theorem sendFetch_programs (n : LotIdent) (b : List Byte) (s : State) :
    (sendFetch n b s).programs = s.programs := by unfold sendFetch; split <;> simp
@[simp] theorem sendFetch_plans (n : LotIdent) (b : List Byte) (s : State) :
    (sendFetch n b s).plans = s.plans := by unfold sendFetch; split <;> simp
@[simp] theorem sendFetch_groups (n : LotIdent) (b : List Byte) (s : State) :
    (sendFetch n b s).groups = s.groups := by unfold sendFetch; split <;> simp
@[simp] theorem sendFetch_offsets (n : LotIdent) (b : List Byte) (s : State) :
    (sendFetch n b s).offsets = s.offsets := by unfold sendFetch; split <;> simp
@[simp] theorem sendFetch_cells (n : LotIdent) (b : List Byte) (s : State) :
    (sendFetch n b s).cells = s.cells := by unfold sendFetch; split <;> simp
@[simp] theorem sendFetch_nextHoldId (n : LotIdent) (b : List Byte) (s : State) :
    (sendFetch n b s).nextHoldId = s.nextHoldId := by unfold sendFetch; split <;> simp
@[simp] theorem sendFetch_sweep (n : LotIdent) (b : List Byte) (s : State) :
    (sendFetch n b s).sweep = s.sweep := by unfold sendFetch; split <;> simp
@[simp] theorem sendFetch_releaseList (n : LotIdent) (b : List Byte) (s : State) :
    (sendFetch n b s).releaseList = s.releaseList := by unfold sendFetch; split <;> simp
@[simp] theorem sendFetch_pending (n : LotIdent) (b : List Byte) (s : State) :
    (sendFetch n b s).pending = s.pending := by unfold sendFetch; split <;> simp

/-! ## State changes with their notices -/

@[simp] theorem lotStateNotice_strap (i : SlotId) (n : LotIdent) (a b : Option LotState) (c d : Option CellId) (s : State) :
    (lotStateNotice i n a b c d s).strap = s.strap := by unfold lotStateNotice; simp
@[simp] theorem lotStateNotice_stations (i : SlotId) (n : LotIdent) (a b : Option LotState) (c d : Option CellId) (s : State) :
    (lotStateNotice i n a b c d s).stations = s.stations := by unfold lotStateNotice; simp
@[simp] theorem lotStateNotice_link (i : SlotId) (n : LotIdent) (a b : Option LotState) (c d : Option CellId) (s : State) :
    (lotStateNotice i n a b c d s).link = s.link := by unfold lotStateNotice; simp
@[simp] theorem lotStateNotice_counters (i : SlotId) (n : LotIdent) (a b : Option LotState) (c d : Option CellId) (s : State) :
    (lotStateNotice i n a b c d s).counters = s.counters := by unfold lotStateNotice; simp
@[simp] theorem lotStateNotice_mono (i : SlotId) (n : LotIdent) (a b : Option LotState) (c d : Option CellId) (s : State) :
    (lotStateNotice i n a b c d s).mono = s.mono := by unfold lotStateNotice; simp
@[simp] theorem lotStateNotice_offset (i : SlotId) (n : LotIdent) (a b : Option LotState) (c d : Option CellId) (s : State) :
    (lotStateNotice i n a b c d s).offset = s.offset := by unfold lotStateNotice; simp
@[simp] theorem lotStateNotice_mode (i : SlotId) (n : LotIdent) (a b : Option LotState) (c d : Option CellId) (s : State) :
    (lotStateNotice i n a b c d s).mode = s.mode := by unfold lotStateNotice; simp
@[simp] theorem lotStateNotice_lots (i : SlotId) (n : LotIdent) (a b : Option LotState) (c d : Option CellId) (s : State) :
    (lotStateNotice i n a b c d s).lots = s.lots := by unfold lotStateNotice; simp
@[simp] theorem lotStateNotice_queue (i : SlotId) (n : LotIdent) (a b : Option LotState) (c d : Option CellId) (s : State) :
    (lotStateNotice i n a b c d s).queue = s.queue := by unfold lotStateNotice; simp
@[simp] theorem lotStateNotice_nextSeq (i : SlotId) (n : LotIdent) (a b : Option LotState) (c d : Option CellId) (s : State) :
    (lotStateNotice i n a b c d s).nextSeq = s.nextSeq := by unfold lotStateNotice; simp
@[simp] theorem lotStateNotice_seqExhausted (i : SlotId) (n : LotIdent) (a b : Option LotState) (c d : Option CellId) (s : State) :
    (lotStateNotice i n a b c d s).seqExhausted = s.seqExhausted := by unfold lotStateNotice; simp
@[simp] theorem lotStateNotice_products (i : SlotId) (n : LotIdent) (a b : Option LotState) (c d : Option CellId) (s : State) :
    (lotStateNotice i n a b c d s).products = s.products := by unfold lotStateNotice; simp
@[simp] theorem lotStateNotice_programs (i : SlotId) (n : LotIdent) (a b : Option LotState) (c d : Option CellId) (s : State) :
    (lotStateNotice i n a b c d s).programs = s.programs := by unfold lotStateNotice; simp
@[simp] theorem lotStateNotice_plans (i : SlotId) (n : LotIdent) (a b : Option LotState) (c d : Option CellId) (s : State) :
    (lotStateNotice i n a b c d s).plans = s.plans := by unfold lotStateNotice; simp
@[simp] theorem lotStateNotice_groups (i : SlotId) (n : LotIdent) (a b : Option LotState) (c d : Option CellId) (s : State) :
    (lotStateNotice i n a b c d s).groups = s.groups := by unfold lotStateNotice; simp
@[simp] theorem lotStateNotice_offsets (i : SlotId) (n : LotIdent) (a b : Option LotState) (c d : Option CellId) (s : State) :
    (lotStateNotice i n a b c d s).offsets = s.offsets := by unfold lotStateNotice; simp
@[simp] theorem lotStateNotice_cells (i : SlotId) (n : LotIdent) (a b : Option LotState) (c d : Option CellId) (s : State) :
    (lotStateNotice i n a b c d s).cells = s.cells := by unfold lotStateNotice; simp
@[simp] theorem lotStateNotice_nextHoldId (i : SlotId) (n : LotIdent) (a b : Option LotState) (c d : Option CellId) (s : State) :
    (lotStateNotice i n a b c d s).nextHoldId = s.nextHoldId := by unfold lotStateNotice; simp
@[simp] theorem lotStateNotice_sweep (i : SlotId) (n : LotIdent) (a b : Option LotState) (c d : Option CellId) (s : State) :
    (lotStateNotice i n a b c d s).sweep = s.sweep := by unfold lotStateNotice; simp
@[simp] theorem lotStateNotice_releaseList (i : SlotId) (n : LotIdent) (a b : Option LotState) (c d : Option CellId) (s : State) :
    (lotStateNotice i n a b c d s).releaseList = s.releaseList := by unfold lotStateNotice; simp
@[simp] theorem lotStateNotice_pending (i : SlotId) (n : LotIdent) (a b : Option LotState) (c d : Option CellId) (s : State) :
    (lotStateNotice i n a b c d s).pending = s.pending := by unfold lotStateNotice; simp

@[simp] theorem cellStateNotice_strap (c : CellId) (b : CellState) (s : State) :
    (cellStateNotice c b s).strap = s.strap := by unfold cellStateNotice; simp
@[simp] theorem cellStateNotice_stations (c : CellId) (b : CellState) (s : State) :
    (cellStateNotice c b s).stations = s.stations := by unfold cellStateNotice; simp
@[simp] theorem cellStateNotice_link (c : CellId) (b : CellState) (s : State) :
    (cellStateNotice c b s).link = s.link := by unfold cellStateNotice; simp
@[simp] theorem cellStateNotice_counters (c : CellId) (b : CellState) (s : State) :
    (cellStateNotice c b s).counters = s.counters := by unfold cellStateNotice; simp
@[simp] theorem cellStateNotice_mono (c : CellId) (b : CellState) (s : State) :
    (cellStateNotice c b s).mono = s.mono := by unfold cellStateNotice; simp
@[simp] theorem cellStateNotice_offset (c : CellId) (b : CellState) (s : State) :
    (cellStateNotice c b s).offset = s.offset := by unfold cellStateNotice; simp
@[simp] theorem cellStateNotice_mode (c : CellId) (b : CellState) (s : State) :
    (cellStateNotice c b s).mode = s.mode := by unfold cellStateNotice; simp
@[simp] theorem cellStateNotice_lots (c : CellId) (b : CellState) (s : State) :
    (cellStateNotice c b s).lots = s.lots := by unfold cellStateNotice; simp
@[simp] theorem cellStateNotice_queue (c : CellId) (b : CellState) (s : State) :
    (cellStateNotice c b s).queue = s.queue := by unfold cellStateNotice; simp
@[simp] theorem cellStateNotice_nextSeq (c : CellId) (b : CellState) (s : State) :
    (cellStateNotice c b s).nextSeq = s.nextSeq := by unfold cellStateNotice; simp
@[simp] theorem cellStateNotice_seqExhausted (c : CellId) (b : CellState) (s : State) :
    (cellStateNotice c b s).seqExhausted = s.seqExhausted := by unfold cellStateNotice; simp
@[simp] theorem cellStateNotice_products (c : CellId) (b : CellState) (s : State) :
    (cellStateNotice c b s).products = s.products := by unfold cellStateNotice; simp
@[simp] theorem cellStateNotice_programs (c : CellId) (b : CellState) (s : State) :
    (cellStateNotice c b s).programs = s.programs := by unfold cellStateNotice; simp
@[simp] theorem cellStateNotice_plans (c : CellId) (b : CellState) (s : State) :
    (cellStateNotice c b s).plans = s.plans := by unfold cellStateNotice; simp
@[simp] theorem cellStateNotice_groups (c : CellId) (b : CellState) (s : State) :
    (cellStateNotice c b s).groups = s.groups := by unfold cellStateNotice; simp
@[simp] theorem cellStateNotice_offsets (c : CellId) (b : CellState) (s : State) :
    (cellStateNotice c b s).offsets = s.offsets := by unfold cellStateNotice; simp
@[simp] theorem cellStateNotice_cells (c : CellId) (b : CellState) (s : State) :
    (cellStateNotice c b s).cells = s.cells := by unfold cellStateNotice; simp
@[simp] theorem cellStateNotice_nextHoldId (c : CellId) (b : CellState) (s : State) :
    (cellStateNotice c b s).nextHoldId = s.nextHoldId := by unfold cellStateNotice; simp
@[simp] theorem cellStateNotice_sweep (c : CellId) (b : CellState) (s : State) :
    (cellStateNotice c b s).sweep = s.sweep := by unfold cellStateNotice; simp
@[simp] theorem cellStateNotice_releaseList (c : CellId) (b : CellState) (s : State) :
    (cellStateNotice c b s).releaseList = s.releaseList := by unfold cellStateNotice; simp
@[simp] theorem cellStateNotice_pending (c : CellId) (b : CellState) (s : State) :
    (cellStateNotice c b s).pending = s.pending := by unfold cellStateNotice; simp

@[simp] theorem enterLotState_strap (i : SlotId) (n : LotState) (d : Option CellId) (s : State) :
    (enterLotState i n d s).strap = s.strap := by unfold enterLotState; split <;> simp
@[simp] theorem enterLotState_stations (i : SlotId) (n : LotState) (d : Option CellId) (s : State) :
    (enterLotState i n d s).stations = s.stations := by unfold enterLotState; split <;> simp
@[simp] theorem enterLotState_link (i : SlotId) (n : LotState) (d : Option CellId) (s : State) :
    (enterLotState i n d s).link = s.link := by unfold enterLotState; split <;> simp
@[simp] theorem enterLotState_counters (i : SlotId) (n : LotState) (d : Option CellId) (s : State) :
    (enterLotState i n d s).counters = s.counters := by unfold enterLotState; split <;> simp
@[simp] theorem enterLotState_mono (i : SlotId) (n : LotState) (d : Option CellId) (s : State) :
    (enterLotState i n d s).mono = s.mono := by unfold enterLotState; split <;> simp
@[simp] theorem enterLotState_offset (i : SlotId) (n : LotState) (d : Option CellId) (s : State) :
    (enterLotState i n d s).offset = s.offset := by unfold enterLotState; split <;> simp
@[simp] theorem enterLotState_mode (i : SlotId) (n : LotState) (d : Option CellId) (s : State) :
    (enterLotState i n d s).mode = s.mode := by unfold enterLotState; split <;> simp
@[simp] theorem enterLotState_queue (i : SlotId) (n : LotState) (d : Option CellId) (s : State) :
    (enterLotState i n d s).queue = s.queue := by unfold enterLotState; split <;> simp
@[simp] theorem enterLotState_nextSeq (i : SlotId) (n : LotState) (d : Option CellId) (s : State) :
    (enterLotState i n d s).nextSeq = s.nextSeq := by unfold enterLotState; split <;> simp
@[simp] theorem enterLotState_seqExhausted (i : SlotId) (n : LotState) (d : Option CellId) (s : State) :
    (enterLotState i n d s).seqExhausted = s.seqExhausted := by unfold enterLotState; split <;> simp
@[simp] theorem enterLotState_products (i : SlotId) (n : LotState) (d : Option CellId) (s : State) :
    (enterLotState i n d s).products = s.products := by unfold enterLotState; split <;> simp
@[simp] theorem enterLotState_programs (i : SlotId) (n : LotState) (d : Option CellId) (s : State) :
    (enterLotState i n d s).programs = s.programs := by unfold enterLotState; split <;> simp
@[simp] theorem enterLotState_plans (i : SlotId) (n : LotState) (d : Option CellId) (s : State) :
    (enterLotState i n d s).plans = s.plans := by unfold enterLotState; split <;> simp
@[simp] theorem enterLotState_groups (i : SlotId) (n : LotState) (d : Option CellId) (s : State) :
    (enterLotState i n d s).groups = s.groups := by unfold enterLotState; split <;> simp
@[simp] theorem enterLotState_offsets (i : SlotId) (n : LotState) (d : Option CellId) (s : State) :
    (enterLotState i n d s).offsets = s.offsets := by unfold enterLotState; split <;> simp
@[simp] theorem enterLotState_cells (i : SlotId) (n : LotState) (d : Option CellId) (s : State) :
    (enterLotState i n d s).cells = s.cells := by unfold enterLotState; split <;> simp
@[simp] theorem enterLotState_nextHoldId (i : SlotId) (n : LotState) (d : Option CellId) (s : State) :
    (enterLotState i n d s).nextHoldId = s.nextHoldId := by unfold enterLotState; split <;> simp
@[simp] theorem enterLotState_sweep (i : SlotId) (n : LotState) (d : Option CellId) (s : State) :
    (enterLotState i n d s).sweep = s.sweep := by unfold enterLotState; split <;> simp
@[simp] theorem enterLotState_releaseList (i : SlotId) (n : LotState) (d : Option CellId) (s : State) :
    (enterLotState i n d s).releaseList = s.releaseList := by unfold enterLotState; split <;> simp
@[simp] theorem enterLotState_pending (i : SlotId) (n : LotState) (d : Option CellId) (s : State) :
    (enterLotState i n d s).pending = s.pending := by unfold enterLotState; split <;> simp

@[simp] theorem enterCellState_strap (c : CellId) (n : CellState) (g : Cell → Cell) (s : State) :
    (enterCellState c n g s).strap = s.strap := by unfold enterCellState; simp
@[simp] theorem enterCellState_stations (c : CellId) (n : CellState) (g : Cell → Cell) (s : State) :
    (enterCellState c n g s).stations = s.stations := by unfold enterCellState; simp
@[simp] theorem enterCellState_link (c : CellId) (n : CellState) (g : Cell → Cell) (s : State) :
    (enterCellState c n g s).link = s.link := by unfold enterCellState; simp
@[simp] theorem enterCellState_counters (c : CellId) (n : CellState) (g : Cell → Cell) (s : State) :
    (enterCellState c n g s).counters = s.counters := by unfold enterCellState; simp
@[simp] theorem enterCellState_mono (c : CellId) (n : CellState) (g : Cell → Cell) (s : State) :
    (enterCellState c n g s).mono = s.mono := by unfold enterCellState; simp
@[simp] theorem enterCellState_offset (c : CellId) (n : CellState) (g : Cell → Cell) (s : State) :
    (enterCellState c n g s).offset = s.offset := by unfold enterCellState; simp
@[simp] theorem enterCellState_mode (c : CellId) (n : CellState) (g : Cell → Cell) (s : State) :
    (enterCellState c n g s).mode = s.mode := by unfold enterCellState; simp
@[simp] theorem enterCellState_lots (c : CellId) (n : CellState) (g : Cell → Cell) (s : State) :
    (enterCellState c n g s).lots = s.lots := by unfold enterCellState; simp
@[simp] theorem enterCellState_queue (c : CellId) (n : CellState) (g : Cell → Cell) (s : State) :
    (enterCellState c n g s).queue = s.queue := by unfold enterCellState; simp
@[simp] theorem enterCellState_nextSeq (c : CellId) (n : CellState) (g : Cell → Cell) (s : State) :
    (enterCellState c n g s).nextSeq = s.nextSeq := by unfold enterCellState; simp
@[simp] theorem enterCellState_seqExhausted (c : CellId) (n : CellState) (g : Cell → Cell) (s : State) :
    (enterCellState c n g s).seqExhausted = s.seqExhausted := by unfold enterCellState; simp
@[simp] theorem enterCellState_products (c : CellId) (n : CellState) (g : Cell → Cell) (s : State) :
    (enterCellState c n g s).products = s.products := by unfold enterCellState; simp
@[simp] theorem enterCellState_programs (c : CellId) (n : CellState) (g : Cell → Cell) (s : State) :
    (enterCellState c n g s).programs = s.programs := by unfold enterCellState; simp
@[simp] theorem enterCellState_plans (c : CellId) (n : CellState) (g : Cell → Cell) (s : State) :
    (enterCellState c n g s).plans = s.plans := by unfold enterCellState; simp
@[simp] theorem enterCellState_groups (c : CellId) (n : CellState) (g : Cell → Cell) (s : State) :
    (enterCellState c n g s).groups = s.groups := by unfold enterCellState; simp
@[simp] theorem enterCellState_offsets (c : CellId) (n : CellState) (g : Cell → Cell) (s : State) :
    (enterCellState c n g s).offsets = s.offsets := by unfold enterCellState; simp
@[simp] theorem enterCellState_nextHoldId (c : CellId) (n : CellState) (g : Cell → Cell) (s : State) :
    (enterCellState c n g s).nextHoldId = s.nextHoldId := by unfold enterCellState; simp
@[simp] theorem enterCellState_sweep (c : CellId) (n : CellState) (g : Cell → Cell) (s : State) :
    (enterCellState c n g s).sweep = s.sweep := by unfold enterCellState; simp
@[simp] theorem enterCellState_releaseList (c : CellId) (n : CellState) (g : Cell → Cell) (s : State) :
    (enterCellState c n g s).releaseList = s.releaseList := by unfold enterCellState; simp
@[simp] theorem enterCellState_pending (c : CellId) (n : CellState) (g : Cell → Cell) (s : State) :
    (enterCellState c n g s).pending = s.pending := by unfold enterCellState; simp

/-! ## Reading after writing -/

/-- A cell read after a cell is written. -/
theorem getCell_setCell (c d : CellId) (x : Cell) (s : State) :
    getCell (setCell c x s) d = if c = d then x else getCell s d := by
  simp [getCell, setCell, Vector.getElem_set, Fin.ext_iff]

@[simp] theorem getCell_setCell_same (c : CellId) (x : Cell) (s : State) : getCell (setCell c x s) c = x := by
  simp [getCell_setCell]

/-- A cell read after a cell is changed. -/
theorem getCell_modCell (c d : CellId) (g : Cell → Cell) (s : State) :
    getCell (modCell c g s) d = if c = d then g (getCell s c) else getCell s d := by
  simp [modCell, getCell_setCell]

@[simp] theorem getCell_modCell_same (c : CellId) (g : Cell → Cell) (s : State) :
    getCell (modCell c g s) c = g (getCell s c) := by
  simp [getCell_modCell]

/-- A slot read after a slot is written. -/
theorem getLot_setLot (i j : SlotId) (x : Option Lot) (s : State) :
    getLot (setLot i x s) j = if i = j then x else getLot s j := by
  simp [getLot, setLot, Vector.getElem_set, Fin.ext_iff]

@[simp] theorem getLot_setLot_same (i : SlotId) (x : Option Lot) (s : State) : getLot (setLot i x s) i = x := by
  simp [getLot_setLot]

/-- A slot read after a lot is changed. -/
theorem getLot_modLot (i j : SlotId) (g : Lot → Lot) (s : State) :
    getLot (modLot i g s) j = if i = j then (getLot s i).map g else getLot s j := by
  unfold modLot
  split <;> rename_i h
  · simp [getLot_setLot, h]
  · split <;> rename_i e
    · subst e; simp [h]
    · rfl

@[simp] theorem getLot_modLot_same (i : SlotId) (g : Lot → Lot) (s : State) :
    getLot (modLot i g s) i = (getLot s i).map g := by
  simp [getLot_modLot]

/-- A slot read after a lot enters a state. -/
theorem getLot_enterLotState (i j : SlotId) (n : LotState) (d : Option CellId) (s : State) :
    getLot (enterLotState i n d s) j =
      if i = j then (getLot s i).map (fun l => { l with state := n }) else getLot s j := by
  unfold enterLotState
  split <;> rename_i h
  · split <;> rename_i e
    · subst e; simp [h]
    · rfl
  · simp only [getLot, lotStateNotice_lots]
    have := getLot_setLot i j (some { (‹Lot› : Lot) with state := n }) s
    simp only [getLot] at this h ⊢
    rw [this]; split <;> simp_all

/-- A cell read after a cell enters a state. -/
theorem getCell_enterCellState (c d : CellId) (n : CellState) (g : Cell → Cell) (s : State) :
    getCell (enterCellState c n g s) d = if c = d then { g (getCell s c) with state := n } else getCell s d := by
  unfold enterCellState
  simp only [getCell, cellStateNotice_cells]
  have := getCell_modCell c d (fun x => { g x with state := n }) s
  simpa only [getCell] using this

/-- Cells are read alike where the cells are the same. -/
theorem getCell_congr {s t : State} (h : s.cells = t.cells) (c : CellId) : getCell s c = getCell t c := by
  simp [getCell, h]

/-- Lots are read alike where the lots are the same. -/
theorem getLot_congr {s t : State} (h : s.lots = t.lots) (i : SlotId) : getLot s i = getLot t i := by
  simp [getLot, h]

@[simp] theorem getPort_setPort_same (p : Port) (x : PortState) (s : State) : getPort (setPort p x s) p = x := by
  cases p <;> rfl

@[simp] theorem getPort_setPort_other (p : Port) (x : PortState) (s : State) :
    getPort (setPort p x s) (otherPort p) = getPort s (otherPort p) := by
  cases p <;> rfl

end Sys2Proof.Laws
end

