-- ==== Sys2Proof/Laws/Reads.lean ====
section
/-! SUPPORT. Cells, lots and groups read through the updates that do not write them, for simp. -/

namespace Sys2Proof.Laws

open Sys2Proof Sys2Proof.Machine

@[simp] theorem getLot_setCell (c : CellId) (x : Cell) (s : State) (j : SlotId) : getLot (setCell c x s) j = getLot s j :=
  getLot_congr (setCell_lots ..) j

@[simp] theorem getLot_modCell (c : CellId) (g : Cell → Cell) (s : State) (j : SlotId) : getLot (modCell c g s) j = getLot s j :=
  getLot_congr (modCell_lots ..) j

@[simp] theorem getLot_enterCellState (c : CellId) (n : CellState) (g : Cell → Cell) (s : State) (j : SlotId) : getLot (enterCellState c n g s) j = getLot s j :=
  getLot_congr (enterCellState_lots ..) j

@[simp] theorem getCell_setLot (i : SlotId) (y : Option Lot) (s : State) (d : CellId) : getCell (setLot i y s) d = getCell s d :=
  getCell_congr (setLot_cells ..) d

@[simp] theorem getCell_modLot (i : SlotId) (g : Lot → Lot) (s : State) (d : CellId) : getCell (modLot i g s) d = getCell s d :=
  getCell_congr (modLot_cells ..) d

@[simp] theorem getCell_enterLotState (i : SlotId) (n : LotState) (e : Option CellId) (s : State) (d : CellId) : getCell (enterLotState i n e s) d = getCell s d :=
  getCell_congr (enterLotState_cells ..) d

@[simp] theorem getCell_modProduct (p : ProductId) (g : Product → Product) (s : State) (d : CellId) : getCell (modProduct p g s) d = getCell s d :=
  getCell_congr (modProduct_cells ..) d

@[simp] theorem getLot_modProduct (p : ProductId) (g : Product → Product) (s : State) (j : SlotId) : getLot (modProduct p g s) j = getLot s j :=
  getLot_congr (modProduct_lots ..) j

@[simp] theorem getCell_leaveQueue (i : SlotId) (s : State) (d : CellId) : getCell (leaveQueue i s) d = getCell s d :=
  getCell_congr (leaveQueue_cells ..) d

@[simp] theorem getLot_leaveQueue (i : SlotId) (s : State) (j : SlotId) : getLot (leaveQueue i s) j = getLot s j :=
  getLot_congr (leaveQueue_lots ..) j

@[simp] theorem getCell_placeInQueue (i : SlotId) (s : State) (d : CellId) : getCell (placeInQueue i s) d = getCell s d :=
  getCell_congr (placeInQueue_cells ..) d

@[simp] theorem getLot_placeInQueue (i : SlotId) (s : State) (j : SlotId) : getLot (placeInQueue i s) j = getLot s j :=
  getLot_congr (placeInQueue_lots ..) j

@[simp] theorem getCell_setPort (p : Port) (x : PortState) (s : State) (d : CellId) : getCell (setPort p x s) d = getCell s d :=
  getCell_congr (setPort_cells ..) d

@[simp] theorem getLot_setPort (p : Port) (x : PortState) (s : State) (j : SlotId) : getLot (setPort p x s) j = getLot s j :=
  getLot_congr (setPort_lots ..) j

@[simp] theorem getCell_handTo (p : Port) (o : OutFrame) (s : State) (d : CellId) : getCell (handTo p o s) d = getCell s d :=
  getCell_congr (handTo_cells ..) d

@[simp] theorem getLot_handTo (p : Port) (o : OutFrame) (s : State) (j : SlotId) : getLot (handTo p o s) j = getLot s j :=
  getLot_congr (handTo_lots ..) j

@[simp] theorem getCell_forward (k : Byte) (b : List Byte) (f : Frame) (s : State) (d : CellId) : getCell (forward k b f s) d = getCell s d :=
  getCell_congr (forward_cells ..) d

@[simp] theorem getLot_forward (k : Byte) (b : List Byte) (f : Frame) (s : State) (j : SlotId) : getLot (forward k b f s) j = getLot s j :=
  getLot_congr (forward_lots ..) j

@[simp] theorem getCell_countBy (k : Counter) (n : Nat) (s : State) (d : CellId) : getCell (countBy k n s) d = getCell s d :=
  getCell_congr (countBy_cells ..) d

@[simp] theorem getLot_countBy (k : Counter) (n : Nat) (s : State) (j : SlotId) : getLot (countBy k n s) j = getLot s j :=
  getLot_congr (countBy_lots ..) j

@[simp] theorem getCell_count (k : Counter) (s : State) (d : CellId) : getCell (count k s) d = getCell s d :=
  getCell_congr (count_cells ..) d

@[simp] theorem getLot_count (k : Counter) (s : State) (j : SlotId) : getLot (count k s) j = getLot s j :=
  getLot_congr (count_lots ..) j

@[simp] theorem getCell_notice (k : NoticeKind) (n : LotIdent) (b : List Byte) (s : State) (d : CellId) : getCell (notice k n b s) d = getCell s d :=
  getCell_congr (notice_cells ..) d

@[simp] theorem getLot_notice (k : NoticeKind) (n : LotIdent) (b : List Byte) (s : State) (j : SlotId) : getLot (notice k n b s) j = getLot s j :=
  getLot_congr (notice_lots ..) j

@[simp] theorem getCell_answer (a : Asker) (n : List Byte) (k : AnswerCode) (b : List Byte) (s : State) (d : CellId) : getCell (answer a n k b s) d = getCell s d :=
  getCell_congr (answer_cells ..) d

@[simp] theorem getLot_answer (a : Asker) (n : List Byte) (k : AnswerCode) (b : List Byte) (s : State) (j : SlotId) : getLot (answer a n k b s) j = getLot s j :=
  getLot_congr (answer_lots ..) j

@[simp] theorem getCell_reply (q : Command) (f : Frame) (k : AnswerCode) (b : List Byte) (s : State) (d : CellId) : getCell (reply q f k b s) d = getCell s d :=
  getCell_congr (reply_cells ..) d

@[simp] theorem getLot_reply (q : Command) (f : Frame) (k : AnswerCode) (b : List Byte) (s : State) (j : SlotId) : getLot (reply q f k b s) j = getLot s j :=
  getLot_congr (reply_lots ..) j

@[simp] theorem getCell_sendCommand (k : Kind) (a : Option Addr) (n : LotIdent) (b : List Byte) (s : State) (d : CellId) : getCell (sendCommand k a n b s) d = getCell s d :=
  getCell_congr (sendCommand_cells ..) d

@[simp] theorem getLot_sendCommand (k : Kind) (a : Option Addr) (n : LotIdent) (b : List Byte) (s : State) (j : SlotId) : getLot (sendCommand k a n b s) j = getLot s j :=
  getLot_congr (sendCommand_lots ..) j

@[simp] theorem getCell_sendBoth (k : Kind) (c : CellId) (n : LotIdent) (b : List Byte) (s : State) (d : CellId) : getCell (sendBoth k c n b s) d = getCell s d :=
  getCell_congr (sendBoth_cells ..) d

@[simp] theorem getLot_sendBoth (k : Kind) (c : CellId) (n : LotIdent) (b : List Byte) (s : State) (j : SlotId) : getLot (sendBoth k c n b s) j = getLot s j :=
  getLot_congr (sendBoth_lots ..) j

@[simp] theorem getCell_sendFetch (n : LotIdent) (b : List Byte) (s : State) (d : CellId) : getCell (sendFetch n b s) d = getCell s d :=
  getCell_congr (sendFetch_cells ..) d

@[simp] theorem getLot_sendFetch (n : LotIdent) (b : List Byte) (s : State) (j : SlotId) : getLot (sendFetch n b s) j = getLot s j :=
  getLot_congr (sendFetch_lots ..) j

@[simp] theorem getCell_lotStateNotice (i : SlotId) (n : LotIdent) (a b : Option LotState) (u v : Option CellId) (s : State) (d : CellId) : getCell (lotStateNotice i n a b u v s) d = getCell s d :=
  getCell_congr (lotStateNotice_cells ..) d

@[simp] theorem getLot_lotStateNotice (i : SlotId) (n : LotIdent) (a b : Option LotState) (u v : Option CellId) (s : State) (j : SlotId) : getLot (lotStateNotice i n a b u v s) j = getLot s j :=
  getLot_congr (lotStateNotice_lots ..) j

@[simp] theorem getCell_cellStateNotice (c : CellId) (b : CellState) (s : State) (d : CellId) : getCell (cellStateNotice c b s) d = getCell s d :=
  getCell_congr (cellStateNotice_cells ..) d

@[simp] theorem getLot_cellStateNotice (c : CellId) (b : CellState) (s : State) (j : SlotId) : getLot (cellStateNotice c b s) j = getLot s j :=
  getLot_congr (cellStateNotice_lots ..) j


/-- Groups are read alike where the cell has the same group and the group table is the same. -/
theorem groupOf_congr {s t : State} {c : CellId} (g : t.groups = s.groups)
    (h : (getCell t c).group = (getCell s c).group) : groupOf t c = groupOf s c := by
  simp [groupOf, g, h]

/-- A cell's group is read alike after a change of a cell that keeps its group. -/
theorem groupOf_modCell (c d : CellId) (g : Cell → Cell) (s : State)
    (h : ∀ x, (g x).group = x.group := by intro _; rfl) : groupOf (modCell c g s) d = groupOf s d := by
  refine groupOf_congr (s := s) (t := modCell c g s) rfl ?_
  rw [getCell_modCell]
  split
  · next e => rw [h, e]
  · rfl

/-- A standby is one alike where the cell has the same group and the group table is the same. -/
theorem isStandby_congr {s t : State} {c : CellId} (g : t.groups = s.groups)
    (h : (getCell t c).group = (getCell s c).group) : isStandby t c = isStandby s c := by
  simp [isStandby, groupOf_congr g h]

/-- The library is searched alike where it is the same. -/
theorem findProgram_congr {s t : State} (h : t.programs = s.programs) (n : ProgramName) :
    findProgram t n = findProgram s n := by
  simp only [findProgram, h]

/-- Segment counts are read alike where the library is the same. -/
theorem segmentsOf_congr {s t : State} (h : t.programs = s.programs) (n : ProgramName) :
    segmentsOf t n = segmentsOf s n := by
  simp only [segmentsOf, findProgram_congr h, h]

/-- Products are read alike where the product table is the same. -/
theorem productAt_congr {s t : State} (h : t.products = s.products) (p : ProductId) :
    productAt t p = productAt s p := by
  simp [productAt, h]

/-- A lot's product is read alike where the product table is the same. -/
theorem productOf_congr {s t : State} (h : t.products = s.products) (l : Lot) : productOf t l = productOf s l :=
  productAt_congr h _

/-- Floor time is read alike where the time base is the same. -/
theorem floorTime_congr {s t : State} (h : t.mono = s.mono) (k : t.offset = s.offset) :
    floorTime t = floorTime s := by
  simp [floorTime, h, k]

/-- A cell waits alike where its record and the group table are the same. -/
theorem waiting_congr {s t : State} {c : CellId} (g : t.groups = s.groups) (h : getCell t c = getCell s c) :
    waiting t c = waiting s c := by
  simp [waiting, mayTakeWork, isStandby, groupOf, g, h]

end Sys2Proof.Laws
end

