-- ==== Sys2Proof/Laws/Frames.lean ====
section
/-! SUPPORT. What each shared operation leaves as it was: all but the ports, the queue, the one lot and the
one cell it is about. -/

namespace Sys2Proof.Laws

open Sys2Proof Sys2Proof.Machine

/-! ## The relations -/

theorem steady_refl (s : State) : Steady s s := by
  constructor <;> rfl

theorem steady_trans {s t u : State} (h : Steady s t) (k : Steady t u) : Steady s u := by
  exact ⟨k.strap.trans h.strap, k.stations.trans h.stations, k.link.trans h.link, k.counters.trans
    h.counters, k.mono.trans h.mono, k.offset.trans h.offset, k.mode.trans h.mode, k.nextSeq.trans
    h.nextSeq, k.seqExhausted.trans h.seqExhausted, k.products.trans h.products, k.programs.trans
    h.programs, k.plans.trans h.plans, k.groups.trans h.groups, k.offsets.trans h.offsets, k.sweep.trans
    h.sweep, k.pending.trans h.pending⟩

/-- Only the ports and one lot and one cell may differ, with the queue, hold ids and the release list. -/
def near (i : SlotId) (c : CellId) (s t : State) : Prop := Steady s t ∧ otherCells c s t ∧ otherLots i s t

theorem near_of_onlyPair {i : SlotId} {c : CellId} {s t : State} (h : onlyPair i c s t) : near i c s t :=
  ⟨h.1, h.2.2.1, h.2.2.2⟩

theorem onlyPair_refl (i : SlotId) (c : CellId) (s : State) : onlyPair i c s s :=
  ⟨steady_refl s, ⟨rfl, rfl⟩, fun _ _ => rfl, fun _ _ => rfl⟩

theorem onlyPair_trans {i : SlotId} {c : CellId} {s t u : State} (h : onlyPair i c s t) (k : onlyPair i c t u) :
    onlyPair i c s u :=
  ⟨steady_trans h.1 k.1, ⟨k.2.1.1.trans h.2.1.1, k.2.1.2.trans h.2.1.2⟩,
    fun d n => (k.2.2.1 d n).trans (h.2.2.1 d n), fun j n => (k.2.2.2 j n).trans (h.2.2.2 j n)⟩

theorem near_refl (i : SlotId) (c : CellId) (s : State) : near i c s s := near_of_onlyPair (onlyPair_refl i c s)

theorem near_trans {i : SlotId} {c : CellId} {s t u : State} (h : near i c s t) (k : near i c t u) : near i c s u :=
  ⟨steady_trans h.1 k.1, fun d n => (k.2.1 d n).trans (h.2.1 d n), fun j n => (k.2.2 j n).trans (h.2.2 j n)⟩

/-! ## The basic updates -/

section
variable (i : SlotId) (c : CellId) (s : State)

theorem setCell_pair (x : Cell) : onlyPair i c s (setCell c x s) :=
  ⟨by constructor <;> rfl, ⟨rfl, rfl⟩, fun d n => by simp [getCell_setCell, Ne.symm n], fun j _ => by simp⟩

theorem modCell_pair (g : Cell → Cell) : onlyPair i c s (modCell c g s) := setCell_pair i c s _

theorem setLot_pair (x : Option Lot) : onlyPair i c s (setLot i x s) :=
  ⟨by constructor <;> rfl, ⟨rfl, rfl⟩, fun d _ => by simp, fun j n => by simp [getLot_setLot, Ne.symm n]⟩

theorem modLot_pair (g : Lot → Lot) : onlyPair i c s (modLot i g s) := by
  unfold modLot; split
  · exact setLot_pair ..
  · exact onlyPair_refl ..

theorem enterLotState_pair (n : LotState) (e : Option CellId) : onlyPair i c s (enterLotState i n e s) :=
  ⟨by constructor <;> simp, ⟨by simp, by simp⟩, fun d _ => by simp,
    fun j k => by simp [getLot_enterLotState, Ne.symm k]⟩

theorem enterCellState_pair (n : CellState) (g : Cell → Cell) : onlyPair i c s (enterCellState c n g s) :=
  ⟨by constructor <;> simp, ⟨by simp, by simp⟩, fun d k => by simp [getCell_enterCellState, Ne.symm k],
    fun j _ => by simp⟩

theorem leaveQueue_pair (j : SlotId) : onlyPair i c s (leaveQueue j s) :=
  ⟨by constructor <;> rfl, ⟨rfl, rfl⟩, fun _ _ => rfl, fun _ _ => rfl⟩

theorem placeInQueue_pair (j : SlotId) : onlyPair i c s (placeInQueue j s) :=
  ⟨by constructor <;> simp, ⟨by simp, by simp⟩, fun _ _ => by simp, fun _ _ => by simp⟩

theorem notice_pair (k : NoticeKind) (n : LotIdent) (b : List Byte) : onlyPair i c s (notice k n b s) :=
  ⟨by constructor <;> simp, ⟨by simp, by simp⟩, fun _ _ => by simp, fun _ _ => by simp⟩

theorem sendCommand_pair (k : Kind) (a : Option Addr) (n : LotIdent) (b : List Byte) :
    onlyPair i c s (sendCommand k a n b s) :=
  ⟨by constructor <;> simp, ⟨by simp, by simp⟩, fun _ _ => by simp, fun _ _ => by simp⟩

theorem sendBoth_pair (k : Kind) (d : CellId) (n : LotIdent) (b : List Byte) :
    onlyPair i c s (sendBoth k d n b s) :=
  ⟨by constructor <;> simp, ⟨by simp, by simp⟩, fun _ _ => by simp, fun _ _ => by simp⟩

theorem sendFetch_pair (n : LotIdent) (b : List Byte) : onlyPair i c s (sendFetch n b s) :=
  ⟨by constructor <;> simp, ⟨by simp, by simp⟩, fun _ _ => by simp, fun _ _ => by simp⟩

theorem reply_pair (q : Command) (f : Frame) (k : AnswerCode) (b : List Byte) : onlyPair i c s (reply q f k b s) :=
  ⟨by constructor <;> simp, ⟨by simp, by simp⟩, fun _ _ => by simp, fun _ _ => by simp⟩

theorem forward_pair (k : Byte) (b : List Byte) (f : Frame) : onlyPair i c s (forward k b f s) :=
  ⟨by constructor <;> simp, ⟨by simp, by simp⟩, fun _ _ => by simp, fun _ _ => by simp⟩

/-! ## The Lot Table's and Dispatch Arbiter's operations -/

theorem pair_pair : onlyPair i c s (pair i c s) :=
  onlyPair_trans (leaveQueue_pair i c s i) (onlyPair_trans (modLot_pair ..) (modCell_pair ..))

theorem part_pair : onlyPair i c s (part i c s) := onlyPair_trans (modLot_pair ..) (modCell_pair ..)

theorem detachTo_pair (n : LotState) : onlyPair i c s (detachTo i c n s) :=
  onlyPair_trans (part_pair ..) (enterLotState_pair ..)

theorem enterDown_pair (r : DownReason) : onlyPair i c s (enterDown c r s) := enterCellState_pair ..

theorem beginAttempt_pair : onlyPair i c s (beginAttempt c s) := by
  unfold beginAttempt; split
  · exact onlyPair_refl ..
  · exact onlyPair_trans (modCell_pair ..) (sendFetch_pair ..)

theorem beginLoad_pair (j : SlotId) (p : ProgramName) : onlyPair i c s (beginLoad j c p s) :=
  onlyPair_trans (modCell_pair ..) (beginAttempt_pair ..)

theorem setTdDeadline_pair (l : Lot) : onlyPair i c s (setTdDeadline c l s) := modCell_pair ..

theorem startLot_pair : onlyPair i c s (startLot i c s) := by
  unfold startLot
  have h : onlyPair i c s (modLot i (fun l => { l with lastTd := 0 })
      (enterCellState c .running (fun x => { x with intent := .none }) (enterLotState i .testing none s))) :=
    onlyPair_trans (enterLotState_pair ..) (onlyPair_trans (enterCellState_pair ..) (modLot_pair ..))
  dsimp only
  split
  · exact h
  · exact onlyPair_trans h (onlyPair_trans (modCell_pair ..) (onlyPair_trans (modCell_pair ..)
      (onlyPair_trans (sendBoth_pair ..) (setTdDeadline_pair ..))))

theorem assign_pair : onlyPair i c s (assign i c s) := by
  unfold assign
  split
  · exact onlyPair_refl ..
  · have h := onlyPair_trans (pair_pair i c s) (modCell_pair i c (pair i c s)
      (fun x => { clearLatch x with blockDeadline := none }))
    dsimp only
    split
    · exact onlyPair_trans h (startLot_pair ..)
    · exact onlyPair_trans h (onlyPair_trans (enterLotState_pair ..)
        (onlyPair_trans (enterCellState_pair ..) (beginLoad_pair ..)))

end

end Sys2Proof.Laws
end

