-- ==== Sys2Proof/Laws/Quiet.lean ====
section
/-! SUPPORT. The operations of dispatch, cells, correlation and hold effects are quiet: they change no table,
no counter, no hold record, and of a lot only where it stands. -/

namespace Sys2Proof.Laws

open Sys2Proof Sys2Proof.Machine

/-! ## The relation -/

/-- A lot record without the fields that say where it stands. -/
def lotFixed (l : Lot) : Lot :=
  { l with priority := 0, queueTime := 0, lastPromotion := 0, agingStart := 0, state := .queued, cell := none,
           lastCell := none, lastTd := 0, releaseTime := none }

/-- Tables, time, sweep and hold ids are as they were, and every lot but for where it stands. -/
structure Quiet (s t : State) : Prop where
  steady : Steady s t
  holdId : t.nextHoldId = s.nextHoldId
  lots : ∀ j, (getLot t j).map lotFixed = (getLot s j).map lotFixed

theorem quiet_refl (s : State) : Quiet s s := ⟨steady_refl s, rfl, fun _ => rfl⟩

theorem quiet_trans {s t u : State} (h : Quiet s t) (k : Quiet t u) : Quiet s u :=
  ⟨steady_trans h.steady k.steady, k.holdId.trans h.holdId, fun j => (k.lots j).trans (h.lots j)⟩

/-- An update that leaves the lots alone is quiet. -/
theorem quiet_of_lots {s t : State} (h : Steady s t) (n : t.nextHoldId = s.nextHoldId) (k : t.lots = s.lots) :
    Quiet s t :=
  ⟨h, n, fun j => by rw [getLot_congr k]⟩

/-! ## Basic updates -/

theorem modCell_quiet (c : CellId) (g : Cell → Cell) (s : State) : Quiet s (modCell c g s) :=
  quiet_of_lots (by constructor <;> rfl) rfl rfl

theorem setCell_quiet (c : CellId) (x : Cell) (s : State) : Quiet s (setCell c x s) :=
  quiet_of_lots (by constructor <;> rfl) rfl rfl

theorem modLot_quiet (i : SlotId) (g : Lot → Lot) (s : State)
    (h : ∀ l, lotFixed (g l) = lotFixed l := by intro _; rfl) : Quiet s (modLot i g s) := by
  refine ⟨(modLot_pair i 0 s g).1, by simp, fun j => ?_⟩
  rw [getLot_modLot]
  split
  · next e => subst e; cases getLot s i <;> simp [h]
  · rfl

theorem enterLotState_quiet (i : SlotId) (n : LotState) (e : Option CellId) (s : State) :
    Quiet s (enterLotState i n e s) := by
  refine ⟨(enterLotState_pair i 0 s n e).1, by simp, fun j => ?_⟩
  rw [getLot_enterLotState]
  split
  · next e => subst e; cases getLot s i <;> simp [lotFixed]
  · rfl

theorem enterCellState_quiet (c : CellId) (n : CellState) (g : Cell → Cell) (s : State) :
    Quiet s (enterCellState c n g s) :=
  quiet_of_lots (enterCellState_pair 0 c s n g).1 (by simp) (by simp)

theorem leaveQueue_quiet (i : SlotId) (s : State) : Quiet s (leaveQueue i s) :=
  quiet_of_lots (by constructor <;> rfl) rfl rfl

theorem placeInQueue_quiet (i : SlotId) (s : State) : Quiet s (placeInQueue i s) :=
  quiet_of_lots (placeInQueue_pair 0 0 s i).1 (by simp) (by simp)

theorem notice_quiet (k : NoticeKind) (n : LotIdent) (b : List Byte) (s : State) : Quiet s (notice k n b s) :=
  quiet_of_lots (notice_pair 0 0 s k n b).1 (by simp) (by simp)

theorem sendCommand_quiet (k : Kind) (a : Option Addr) (n : LotIdent) (b : List Byte) (s : State) :
    Quiet s (sendCommand k a n b s) :=
  quiet_of_lots (sendCommand_pair 0 0 s k a n b).1 (by simp) (by simp)

theorem sendBoth_quiet (k : Kind) (c : CellId) (n : LotIdent) (b : List Byte) (s : State) :
    Quiet s (sendBoth k c n b s) :=
  quiet_of_lots (sendBoth_pair 0 0 s k c n b).1 (by simp) (by simp)

theorem sendFetch_quiet (n : LotIdent) (b : List Byte) (s : State) : Quiet s (sendFetch n b s) :=
  quiet_of_lots (sendFetch_pair 0 0 s n b).1 (by simp) (by simp)

theorem reply_quiet (q : Command) (f : Frame) (k : AnswerCode) (b : List Byte) (s : State) :
    Quiet s (reply q f k b s) :=
  quiet_of_lots (reply_pair 0 0 s q f k b).1 (by simp) (by simp)

theorem forward_quiet (k : Byte) (b : List Byte) (f : Frame) (s : State) : Quiet s (forward k b f s) :=
  quiet_of_lots (forward_pair 0 0 s k b f).1 (by simp) (by simp)

theorem releaseList_quiet (xs : List SlotId) (s : State) : Quiet s { s with releaseList := xs } :=
  quiet_of_lots (by constructor <;> rfl) rfl rfl

/-! ## Lot Table and Dispatch Arbiter -/

theorem pair_quiet (i : SlotId) (c : CellId) (s : State) : Quiet s (pair i c s) :=
  quiet_trans (leaveQueue_quiet i s) (quiet_trans (modLot_quiet ..) (modCell_quiet ..))

theorem part_quiet (i : SlotId) (c : CellId) (s : State) : Quiet s (part i c s) :=
  quiet_trans (modLot_quiet ..) (modCell_quiet ..)

theorem detachTo_quiet (i : SlotId) (c : CellId) (n : LotState) (s : State) : Quiet s (detachTo i c n s) :=
  quiet_trans (part_quiet ..) (enterLotState_quiet ..)

theorem enterDown_quiet (c : CellId) (r : DownReason) (s : State) : Quiet s (enterDown c r s) :=
  enterCellState_quiet ..

theorem beginAttempt_quiet (c : CellId) (s : State) : Quiet s (beginAttempt c s) := by
  unfold beginAttempt; split
  · exact quiet_refl _
  · exact quiet_trans (modCell_quiet ..) (sendFetch_quiet ..)

theorem beginLoad_quiet (i : SlotId) (c : CellId) (p : ProgramName) (s : State) : Quiet s (beginLoad i c p s) :=
  quiet_trans (modCell_quiet ..) (beginAttempt_quiet ..)

theorem setTdDeadline_quiet (c : CellId) (l : Lot) (s : State) : Quiet s (setTdDeadline c l s) := modCell_quiet ..

theorem startLot_quiet (i : SlotId) (c : CellId) (s : State) : Quiet s (startLot i c s) := by
  unfold startLot
  have h : Quiet s (modLot i (fun l => { l with lastTd := 0 })
      (enterCellState c .running (fun x => { x with intent := .none }) (enterLotState i .testing none s))) :=
    quiet_trans (enterLotState_quiet ..) (quiet_trans (enterCellState_quiet ..) (modLot_quiet ..))
  dsimp only
  split
  · exact h
  · exact quiet_trans h (quiet_trans (modCell_quiet ..) (quiet_trans (modCell_quiet ..)
      (quiet_trans (sendBoth_quiet ..) (setTdDeadline_quiet ..))))

theorem assign_quiet (i : SlotId) (c : CellId) (s : State) : Quiet s (assign i c s) := by
  unfold assign
  split
  · exact quiet_refl _
  · have h := quiet_trans (pair_quiet i c s) (modCell_quiet c (fun x => { clearLatch x with blockDeadline := none }) _)
    dsimp only
    split
    · exact quiet_trans h (startLot_quiet ..)
    · exact quiet_trans h (quiet_trans (enterLotState_quiet ..)
        (quiet_trans (enterCellState_quiet ..) (beginLoad_quiet ..)))

theorem chooseFor_quiet (c : CellId) (s : State) : Quiet s (chooseFor c s) := by
  unfold chooseFor
  split
  · split
    · exact assign_quiet ..
    · exact quiet_refl _
  · exact quiet_refl _

theorem offer_quiet (i : SlotId) (s : State) : Quiet s (offer i s) := by
  unfold offer
  split
  · exact quiet_refl _
  · split
    · exact assign_quiet ..
    · exact quiet_refl _

theorem joinQueue_quiet (i : SlotId) (e : Option CellId) (s : State) : Quiet s (joinQueue i e s) :=
  quiet_trans (modLot_quiet i _ s) (quiet_trans (placeInQueue_quiet ..)
    (quiet_trans (enterLotState_quiet ..) (offer_quiet ..)))

theorem setClass_quiet (i : SlotId) (k : Fin 4) (s : State) : Quiet s (setClass i k s) := by
  have h : Quiet s (stampClass i k s) := modLot_quiet i _ s
  unfold setClass
  dsimp only
  split
  · exact h
  · split
    · exact quiet_trans h (quiet_trans (placeInQueue_quiet ..) (offer_quiet ..))
    · exact h

/-! ## Cell Table -/

theorem sendUnload_quiet (c : CellId) (s : State) : Quiet s (sendUnload c s) := by
  unfold sendUnload
  split
  · exact quiet_refl _
  · exact quiet_trans (sendCommand_quiet ..) (quiet_trans (enterLotState_quiet ..) (enterCellState_quiet ..))

theorem stopRequest_quiet (c : CellId) (a : Intent) (s : State) : Quiet s (stopRequest c a s) := by
  unfold stopRequest
  split
  · exact quiet_refl _
  · split
    · exact quiet_trans (sendBoth_quiet ..) (quiet_trans (enterLotState_quiet ..) (enterCellState_quiet ..))
    · exact quiet_trans (sendBoth_quiet ..) (quiet_trans (modCell_quiet ..) (enterLotState_quiet ..))
    · exact modCell_quiet ..
    · exact modCell_quiet ..
    · split
      · exact sendUnload_quiet ..
      · exact quiet_refl _
    · exact quiet_refl _

theorem resume_quiet (c : CellId) (s : State) : Quiet s (resume c s) := by
  unfold resume
  split
  · exact quiet_refl _
  · split
    · exact sendUnload_quiet ..
    · exact quiet_trans (sendBoth_quiet ..) (quiet_trans (enterLotState_quiet ..)
        (quiet_trans (enterCellState_quiet ..) (setTdDeadline_quiet ..)))

theorem pauseCell_quiet (c : CellId) (s : State) : Quiet s (pauseCell c s) := by
  unfold pauseCell
  split
  · exact quiet_refl _
  · exact quiet_trans (enterLotState_quiet ..) (enterCellState_quiet ..)

/-! ## Correlation Unit -/

theorem raiseSuspect_quiet (c : CellId) (s : State) : Quiet s (raiseSuspect c s) := by
  unfold raiseSuspect
  dsimp only
  split
  · exact quiet_trans (modCell_quiet ..) (stopRequest_quiet ..)
  · exact quiet_refl _

theorem endCover_quiet (c : CellId) (s : State) : Quiet s (endCover c s) := modCell_quiet ..

theorem endReturnedCover_quiet (c : CellId) (s : State) : Quiet s (endReturnedCover c s) := by
  unfold endReturnedCover
  split
  · split
    · exact endCover_quiet ..
    · exact quiet_refl _
  · exact quiet_refl _

theorem startCover_quiet (c : CellId) (o : Option Nat) (s : State) : Quiet s (startCover c o s) := by
  unfold startCover
  split
  · exact quiet_refl _
  · split
    · exact quiet_trans (modCell_quiet ..) (chooseFor_quiet ..)
    · exact quiet_refl _

theorem sendCorrelate_quiet (c : CellId) (s : State) : Quiet s (sendCorrelate c s) := sendBoth_quiet ..

theorem beginCorrelation_quiet (c : CellId) (s : State) : Quiet s (beginCorrelation c s) := by
  unfold beginCorrelation
  dsimp only
  refine quiet_trans (enterCellState_quiet c .correlating
    (fun x => { clearReservation (clearLatch x) with downReason := none }) s) ?_
  split
  · exact quiet_trans (endCover_quiet ..) (quiet_trans (modCell_quiet ..) (sendCorrelate_quiet ..))
  · exact quiet_trans (modCell_quiet ..) (sendCorrelate_quiet ..)

theorem correlationStart_quiet (c : CellId) (s : State) : Quiet s (correlationStart c s) :=
  quiet_trans (beginCorrelation_quiet ..) (startCover_quiet ..)

theorem settleIdle_quiet (c : CellId) (s : State) : Quiet s (settleIdle c s) := by
  unfold settleIdle
  split
  · exact correlationStart_quiet ..
  · exact chooseFor_quiet ..

/-! ## Release and hold effects -/

theorem takeOffRelease_quiet (i : SlotId) (s : State) : Quiet s (takeOffRelease i s) :=
  quiet_trans (releaseList_quiet (s.releaseList.erase i) s)
    (quiet_trans (modLot_quiet ..) (enterLotState_quiet ..))

theorem releaseEvaluation_quiet (i : SlotId) (s : State) : Quiet s (releaseEvaluation i s) := by
  unfold releaseEvaluation
  split
  · exact quiet_refl _
  · dsimp only
    split
    · exact quiet_trans (modLot_quiet i _ s) (quiet_trans (enterLotState_quiet ..)
        (quiet_trans (releaseList_quiet ..) (notice_quiet ..)))
    · exact quiet_refl _

theorem pull_quiet (i : SlotId) (c : CellId) (s : State) : Quiet s (pull i c s) :=
  quiet_trans (modCell_quiet ..) (detachTo_quiet ..)

theorem blockingEffect_quiet (i : SlotId) (s : State) : Quiet s (blockingEffect i s) := by
  unfold blockingEffect
  split
  · exact quiet_refl _
  · split
    · exact quiet_trans (leaveQueue_quiet ..) (enterLotState_quiet ..)
    · exact pull_quiet ..
    · exact stopRequest_quiet ..
    · exact stopRequest_quiet ..
    · exact takeOffRelease_quiet ..
    · exact quiet_refl _

theorem advisoryEffect_quiet (i : SlotId) (s : State) : Quiet s (advisoryEffect i s) := by
  unfold advisoryEffect
  split
  · exact quiet_refl _
  · split
    · exact takeOffRelease_quiet ..
    · exact quiet_refl _

theorem placementEffect_quiet (k : HoldKind) (i : SlotId) (s : State) : Quiet s (placementEffect k i s) := by
  cases k
  · exact blockingEffect_quiet ..
  · exact advisoryEffect_quiet ..

theorem afterRemoval_quiet (i : SlotId) (b : Bool) (s : State) : Quiet s (afterRemoval i b s) := by
  unfold afterRemoval
  split
  · exact quiet_refl _
  · split
    · exact releaseEvaluation_quiet ..
    · split
      · split
        · exact joinQueue_quiet ..
        · exact resume_quiet ..
        · exact modCell_quiet ..
        · exact quiet_refl _
      · exact quiet_refl _

/-! ## Boundaries and loads -/

theorem boundaryIdle_quiet (c : CellId) (g : Cell → Cell) (s : State) : Quiet s (boundaryIdle c g s) :=
  enterCellState_quiet ..

theorem startOrElse_quiet (c : CellId) (o : Option SlotId) {g : State → State} (h : ∀ t, Quiet t (g t)) (s : State) :
    Quiet s (startOrElse c o g s) := by
  unfold startOrElse
  split
  · exact quiet_trans (pair_quiet ..) (startLot_quiet ..)
  · exact h s

theorem boundaryMode_quiet (c : CellId) (s : State) : Quiet s (boundaryMode c s) := by
  unfold boundaryMode
  dsimp only
  split
  · exact boundaryIdle_quiet ..
  · exact startOrElse_quiet _ _ (fun _ => boundaryIdle_quiet ..) _
  · split
    · exact boundaryIdle_quiet ..
    · exact startOrElse_quiet _ _ (fun _ => boundaryIdle_quiet ..) _

theorem lotBoundary_quiet (c : CellId) (u : Bool) (s : State) : Quiet s (lotBoundary c u s) := by
  unfold lotBoundary
  dsimp only
  split
  · exact correlationStart_quiet ..
  · refine quiet_trans (endReturnedCover_quiet c s) ?_
    split
    · exact boundaryIdle_quiet ..
    · split
      · exact boundaryIdle_quiet ..
      · exact boundaryMode_quiet ..

theorem loadOutcomeNotice_quiet (c : CellId) (r : LoadRecord) (o : LoadOutcome) (s : State) :
    Quiet s (loadOutcomeNotice c r o s) :=
  notice_quiet ..

theorem doneWithoutLot_quiet (c : CellId) (s : State) : Quiet s (doneWithoutLot c s) := by
  unfold doneWithoutLot
  dsimp only
  refine quiet_trans (enterCellState_quiet c .idle id s)
    (quiet_trans (endReturnedCover_quiet c (enterCellState c .idle id s)) ?_)
  split
  · exact quiet_trans (modCell_quiet ..) (settleIdle_quiet ..)
  · exact settleIdle_quiet ..

theorem loadFailed_quiet (c : CellId) (r : LoadRecord) (s : State) : Quiet s (loadFailed c r s) := by
  unfold loadFailed
  dsimp only
  have h := quiet_trans (modCell_quiet c (fun x => { x with load := none }) s) (enterDown_quiet c .loadFailed _)
  split
  · exact quiet_trans h (quiet_trans (part_quiet ..) (joinQueue_quiet ..))
  · exact h

theorem endAttempt_quiet (c : CellId) (o : LoadOutcome) (s : State) : Quiet s (endAttempt c o s) := by
  unfold endAttempt
  split
  · exact quiet_refl _
  · next r _ =>
    dsimp only
    refine quiet_trans (loadOutcomeNotice_quiet c r o s) ?_
    have h := modCell_quiet c (fun x => { x with loaded := some r.program, load := none }) (loadOutcomeNotice c r o s)
    split
    · split
      · exact quiet_trans h (startLot_quiet ..)
      · exact quiet_trans h (doneWithoutLot_quiet ..)
    · split
      · exact quiet_trans h (startLot_quiet ..)
      · exact quiet_trans h (doneWithoutLot_quiet ..)
    · exact quiet_trans (modCell_quiet ..) (beginAttempt_quiet ..)
    · exact loadFailed_quiet ..

end Sys2Proof.Laws
end

