-- ==== Sys2Proof/Laws/Effects.lean ====
section
/-! SUPPORT. What the shared operations do to the lot and the cell they are about: the record each leaves. -/

namespace Sys2Proof.Laws

open Sys2Proof Sys2Proof.Machine

/-! ## Queues through updates that do not write them -/

section
variable (i : SlotId) (c : CellId) (s : State)

@[simp] theorem enterDown_queue (r : DownReason) : (enterDown c r s).queue = s.queue := enterCellState_queue ..
@[simp] theorem setTdDeadline_queue (l : Lot) : (setTdDeadline c l s).queue = s.queue := rfl
@[simp] theorem pair_queue : (pair i c s).queue = s.queue.erase i := by simp [pair, leaveQueue]
@[simp] theorem part_queue : (part i c s).queue = s.queue := by simp [part]
@[simp] theorem detachTo_queue (n : LotState) : (detachTo i c n s).queue = s.queue := by simp [detachTo]

@[simp] theorem beginAttempt_queue : (beginAttempt c s).queue = s.queue := by
  unfold beginAttempt; split <;> simp

@[simp] theorem beginLoad_queue (p : ProgramName) : (beginLoad i c p s).queue = s.queue := by simp [beginLoad]

@[simp] theorem startLot_queue : (startLot i c s).queue = s.queue := by
  unfold startLot; dsimp only; split <;> simp

@[simp] theorem sendUnload_queue : (sendUnload c s).queue = s.queue := by
  unfold sendUnload; split <;> simp

@[simp] theorem stopRequest_queue (a : Intent) : (stopRequest c a s).queue = s.queue := by
  unfold stopRequest; split
  · rfl
  · split <;> (try split) <;> simp

@[simp] theorem resume_queue : (resume c s).queue = s.queue := by
  unfold resume; split
  · rfl
  · split <;> simp

@[simp] theorem pauseCell_queue : (pauseCell c s).queue = s.queue := by
  unfold pauseCell; split <;> simp

@[simp] theorem endCover_queue : (endCover c s).queue = s.queue := rfl

@[simp] theorem endReturnedCover_queue : (endReturnedCover c s).queue = s.queue := by
  unfold endReturnedCover; split
  · split <;> simp
  · rfl

@[simp] theorem raiseSuspect_queue : (raiseSuspect c s).queue = s.queue := by
  unfold raiseSuspect; dsimp only; split <;> simp

@[simp] theorem beginCorrelation_queue : (beginCorrelation c s).queue = s.queue := by
  unfold beginCorrelation sendCorrelate; dsimp only; split <;> simp

@[simp] theorem takeOffRelease_queue : (takeOffRelease i s).queue = s.queue := by simp [takeOffRelease]

@[simp] theorem releaseEvaluation_queue : (releaseEvaluation i s).queue = s.queue := by
  unfold releaseEvaluation; split
  · rfl
  · dsimp only; split <;> simp [releasedNotice]

end

/-! ## Pairing and parting -/

section
variable {i : SlotId} {c : CellId} {s : State} {l : Lot}

@[simp] theorem getLot_pair (j : SlotId) :
    getLot (pair i c s) j = if i = j then (getLot s i).map (fun l => { l with cell := some c }) else getLot s j := by
  simp [pair, getLot_modLot]

@[simp] theorem getCell_pair (d : CellId) :
    getCell (pair i c s) d = if c = d then { getCell s c with lot := some i } else getCell s d := by
  simp [pair, getCell_modCell]

@[simp] theorem getLot_part (j : SlotId) :
    getLot (part i c s) j =
      if i = j then (getLot s i).map (fun l => { l with cell := none, lastCell := some c }) else getLot s j := by
  simp [part, getLot_modLot]

@[simp] theorem getCell_part (d : CellId) :
    getCell (part i c s) d = if c = d then { getCell s c with lot := none } else getCell s d := by
  simp [part, getCell_modCell]

theorem getLot_detachTo (n : LotState) (j : SlotId) :
    getLot (detachTo i c n s) j =
      if i = j then (getLot s i).map (fun l => { l with cell := none, lastCell := some c, state := n })
      else getLot s j := by
  unfold detachTo
  rw [getLot_enterLotState]
  split
  · next e => subst e; simp [Function.comp_def]
  · next e => simp [e]

theorem getCell_detachTo (n : LotState) (d : CellId) :
    getCell (detachTo i c n s) d = if c = d then { getCell s c with lot := none } else getCell s d := by
  simp [detachTo]

theorem getCell_enterDown (r : DownReason) (d : CellId) :
    getCell (enterDown c r s) d = if c = d then
      { getCell s c with state := .down, downReason := some r, intent := .none, latch := false, latchTime := 0
                         reserved := none, blockRemaining := 0, blockDeadline := none } else getCell s d := by
  simp [enterDown, getCell_enterCellState, clearReservation, clearLatch]

@[simp] theorem getLot_enterDown (r : DownReason) (j : SlotId) : getLot (enterDown c r s) j = getLot s j := by
  simp [enterDown]

/-! ## Loads -/

@[simp] theorem getLot_beginAttempt (j : SlotId) : getLot (beginAttempt c s) j = getLot s j := by
  unfold beginAttempt; split <;> simp

theorem getCell_beginAttempt {r : LoadRecord} (h : (getCell s c).load = some r) (d : CellId) :
    getCell (beginAttempt c s) d = if c = d then
      { getCell s c with load := some { r with expected := (segmentsOf s r.program).getD 0, seen := 0,
                                               deadline := s.mono + (groupOf s c).loadTimeout } }
      else getCell s d := by
  simp [beginAttempt, h, getCell_modCell]

@[simp] theorem getLot_beginLoad (p : ProgramName) (j : SlotId) : getLot (beginLoad i c p s) j = getLot s j := by
  simp [beginLoad]

theorem getCell_beginLoad (p : ProgramName) (d : CellId) :
    getCell (beginLoad i c p s) d = if c = d then
      { getCell s c with
        loaded := none
        load := some ⟨p, (segmentsOf s p).getD 0, 0, 1, s.mono + (groupOf s c).loadTimeout, some i⟩ }
      else getCell s d := by
  unfold beginLoad
  rw [getCell_beginAttempt (r := ⟨p, 0, 0, 1, 0, some i⟩) (by simp)]
  simp only [getCell_modCell_same]
  split
  · next e =>
    rw [groupOf_modCell c c _ s]
    rfl
  · next e => simp [getCell_modCell, e]

/-! ## Starting and assigning -/

theorem getLot_startLot (h : getLot s i = some l) : getLot (startLot i c s) i = some { l with state := .testing, lastTd := 0 } := by
  unfold startLot
  simp [h, getLot_enterLotState, setTdDeadline]

/-- The cell of a started lot. -/
def startedCell (s : State) (c : CellId) (l : Lot) : Cell :=
  let p := productOf s l
  { seedCell l.product p.expectedYield (shiftOf s c)
      (countReservation l.product { getCell s c with state := .running, intent := .none }) with
    tdDeadline := some (s.mono + p.tdTimeout) }

theorem countReservation_group (p : ProductId) (x : Cell) : (countReservation p x).group = x.group := by
  unfold countReservation; split
  · split <;> rfl
  · rfl

theorem seedCell_group (p : ProductId) (e n : Nat) (x : Cell) : (seedCell p e n x).group = x.group := by
  unfold seedCell; split <;> rfl

theorem getCell_startLot (h : getLot s i = some l) : getCell (startLot i c s) c = startedCell s c l := by
  unfold startLot startedCell
  simp [h, getLot_enterLotState, setTdDeadline, getCell_enterCellState, shiftOf, productOf, productAt]
  rw [groupOf_congr (s := s)] <;> simp [getCell_enterCellState, countReservation_group]

/-- A cell at an assignment, before the lot is started or loaded. -/
def pairedCell (i : SlotId) (x : Cell) : Cell :=
  { x with lot := some i, latch := false, latchTime := 0, blockDeadline := none }

/-- The state at an assignment, before the lot is started or loaded. -/
def pairedState (i : SlotId) (c : CellId) (s : State) : State :=
  modCell c (fun x => { clearLatch x with blockDeadline := none }) (pair i c s)

theorem getCell_pairedState (d : CellId) :
    getCell (pairedState i c s) d = if c = d then pairedCell i (getCell s c) else getCell s d := by
  unfold pairedState pairedCell clearLatch
  rw [getCell_modCell]; split
  · simp
  · next e => simp [e]

theorem getLot_pairedState (j : SlotId) :
    getLot (pairedState i c s) j = if i = j then (getLot s i).map (fun l => { l with cell := some c }) else getLot s j := by
  simp [pairedState]

theorem pairedState_quiet (i : SlotId) (c : CellId) (s : State) : Quiet s (pairedState i c s) :=
  quiet_trans (pair_quiet i c s) (modCell_quiet ..)

@[simp] theorem pairedState_queue : (pairedState i c s).queue = s.queue.erase i := by simp [pairedState]

/-- An assignment of a lot whose program the cell holds is a start. -/
theorem assign_start (h : getLot s i = some l) (e : (getCell s c).loaded = some (productOf s l).program) :
    assign i c s = startLot i c (pairedState i c s) := by
  unfold assign
  simp only [h]
  rw [if_pos]
  · rfl
  · simp [clearLatch, e]

/-- An assignment of a lot whose program the cell lacks begins a load. -/
theorem assign_load (h : getLot s i = some l) (e : (getCell s c).loaded ≠ some (productOf s l).program) :
    assign i c s = beginLoad i c (productOf s l).program
      (enterCellState c .loading id (enterLotState i .assigned none (pairedState i c s))) := by
  unfold assign
  simp only [h]
  rw [if_neg]
  · rfl
  · simpa [clearLatch] using e

theorem getLot_assign_start (h : getLot s i = some l) (e : (getCell s c).loaded = some (productOf s l).program) :
    getLot (assign i c s) i = some { l with cell := some c, state := .testing, lastTd := 0 } := by
  rw [assign_start h e, getLot_startLot (l := { l with cell := some c })]
  simp [getLot_pairedState, h]

theorem getCell_assign_start (h : getLot s i = some l) (e : (getCell s c).loaded = some (productOf s l).program) :
    getCell (assign i c s) c = startedCell (pairedState i c s) c { l with cell := some c } := by
  rw [assign_start h e, getCell_startLot (l := { l with cell := some c })]
  simp [getLot_pairedState, h]

theorem getLot_assign_load (h : getLot s i = some l) (e : (getCell s c).loaded ≠ some (productOf s l).program) :
    getLot (assign i c s) i = some { l with cell := some c, state := .assigned } := by
  rw [assign_load h e]
  simp [getLot_enterLotState, getLot_pairedState, h]

theorem getCell_assign_load (h : getLot s i = some l) (e : (getCell s c).loaded ≠ some (productOf s l).program) :
    getCell (assign i c s) c =
      { pairedCell i (getCell s c) with
        state := .loading
        loaded := none
        load := some ⟨(productOf s l).program, (segmentsOf s (productOf s l).program).getD 0, 0, 1,
          s.mono + (groupOf s c).loadTimeout, some i⟩ } := by
  have q := quiet_trans (pairedState_quiet i c s) (quiet_trans (enterLotState_quiet i .assigned none _)
    (enterCellState_quiet c .loading id _))
  rw [assign_load h e, getCell_beginLoad]
  have g : groupOf (enterCellState c .loading id (enterLotState i .assigned none (pairedState i c s))) c = groupOf s c :=
    groupOf_congr q.steady.groups (by simp [getCell_enterCellState, getCell_pairedState, pairedCell])
  have m : segmentsOf (enterCellState c .loading id (enterLotState i .assigned none (pairedState i c s)))
      (productOf s l).program = segmentsOf s (productOf s l).program := segmentsOf_congr q.steady.programs _
  rw [g, m, q.steady.mono]
  simp [getCell_enterCellState, getCell_pairedState]

@[simp] theorem assign_queue (h : getLot s i = some l) : (assign i c s).queue = s.queue.erase i := by
  by_cases e : (getCell s c).loaded = some (productOf s l).program
  · rw [assign_start h e]; simp
  · rw [assign_load h e]; simp

theorem startedCell_state : (startedCell s c l).state = .running := by
  unfold startedCell seedCell countReservation
  dsimp only; split <;> (try split) <;> (try split) <;> rfl

theorem startedCell_lot : (startedCell s c l).lot = (getCell s c).lot := by
  unfold startedCell seedCell countReservation
  dsimp only; split <;> (try split) <;> (try split) <;> rfl

theorem startedCell_latch : (startedCell s c l).latch = (getCell s c).latch := by
  unfold startedCell seedCell countReservation
  dsimp only; split <;> (try split) <;> (try split) <;> rfl

theorem startedCell_latchTime : (startedCell s c l).latchTime = (getCell s c).latchTime := by
  unfold startedCell seedCell countReservation
  dsimp only; split <;> (try split) <;> (try split) <;> rfl

theorem startedCell_blockDeadline : (startedCell s c l).blockDeadline = (getCell s c).blockDeadline := by
  unfold startedCell seedCell countReservation
  dsimp only; split <;> (try split) <;> (try split) <;> rfl

/-- What an assignment of a lot does. -/
theorem assign_assigned (h : getLot s i = some l) : assigned i c s (assign i c s) := by
  by_cases e : (getCell s c).loaded = some (productOf s l).program
  · refine ⟨l, _, h, getLot_assign_start h e, rfl, ?_, ?_, ?_, ?_, assign_queue h, ?_, assign_pair ..⟩ <;>
      simp [getCell_assign_start h e, startedCell_state, startedCell_lot, startedCell_latch, startedCell_latchTime,
        startedCell_blockDeadline, getCell_pairedState, pairedCell, e]
  · refine ⟨l, _, h, getLot_assign_load h e, rfl, ?_, ?_, ?_, ?_, assign_queue h, ?_, assign_pair ..⟩ <;>
      simp [getCell_assign_load h e, pairedCell, e]

end

end Sys2Proof.Laws
end

