-- ==== Sys2Proof/Laws/Link.lean ====
section
/-! SUPPORT. What the Link Unit's path does with a frame that reaches its block. -/

namespace Sys2Proof.Laws

open Sys2Proof Sys2Proof.Machine

/-- An authorised director command acts at its effective level. -/
theorem onCommand_authorised {c : Command} {need : Level} {lead : List Byte} {f : Frame}
    {act : Level → State → State} {s : State} (h : authorised need f s) :
    onCommand c need lead f act s = act (levelOf f s) s := by
  rcases h with h | ⟨st, h, r, le⟩
  · simp [onCommand, levelOf, h]
  · simp [onCommand, levelOf, h, r, Fin.not_lt.mpr le]

/-- An authorised director command other than CELL_SET acts at its effective level. -/
theorem onPlainCommand_authorised {c : Command} {need : Level} {f : Frame} {act : Level → State → State} {s : State}
    (h : authorised need f s) : onPlainCommand c need f act s = act (levelOf f s) s :=
  onCommand_authorised h

/-- An authorised CELL_SET acts. -/
theorem onCellSet_authorised {a : CellAction} {f : Frame} {act : State → State} {s : State}
    (h : authorised 1 f s) : onCellSet a f act s = act s :=
  onCommand_authorised h

/-- An effective level is the numerically greater of the station's level and the requested one. -/
theorem effectiveLevel_val (st : Station) (f : Frame) :
    (effectiveLevel st f).val = max st.level.val (min f.hdr.level.toNat 3) := by
  unfold effectiveLevel requestedLevel
  split <;> simp_all [Fin.lt_def] <;> omega

/-- A level that suffices for a stronger requirement suffices for a weaker one. -/
theorem authorised_mono {a b : Level} (le : a ≤ b) {f : Frame} {s : State} (h : authorised a f s) : authorised b f s := by
  rcases h with h | ⟨st, h, r, k⟩
  · exact .inl h
  · exact .inr ⟨st, h, r, Fin.le_trans k le⟩

/-- A frame of a cell's own equipment is handed to its block with the cell. -/
theorem onEquipment_from {k : Kind} {side : EquipmentSide} {n : Nat} {f : Frame} {act : CellId → State → State}
    {s : State} {c : CellId} (h : fromEquipment side n f s c) : onEquipment k side n f act s = act c (passOn k f s) := by
  obtain ⟨st, h, a, l⟩ := h
  simp [onEquipment, h, judgeEquipment, a, l, equipmentFault]

/-- A load frame of the file server is handed to its block with the cell it names. -/
theorem onFloorLoad_from {k : Kind} {n : Option Nat} {f : Frame} {act : CellId → State → State} {s : State}
    {c : CellId} (h : fromFileServer f s c) (l : n.getD f.body.length = f.body.length) (nc : consumedKind k = false) :
    onFloorLoad k n f act s = act c (forward (kindByte k) [] f s) := by
  obtain ⟨st, h, r, t⟩ := h
  have e : fileServerTarget st f s = some c := by simp [fileServerTarget, r, t]
  rcases h with h | h <;>
    simp [onFloorLoad, h, judgeEquipment, e, l, equipmentFault, passOn, nc]

end Sys2Proof.Laws
end

