-- ==== Sys2Proof/Laws/Ports.lean ====
section
/-! SUPPORT. What the shared operations hand to the ports: each only adds frames behind those that wait, and a frame handed
to a port that ends with room is there. -/

namespace Sys2Proof.Laws

open Sys2Proof Sys2Proof.Machine

/-- Each port's frames to send are those before, with more behind them. -/
structure Handed (s t : State) : Prop where
  tx : ∀ p, (getPort s p).tx <+: (getPort t p).tx

theorem handed_refl (s : State) : Handed s s := ⟨fun _ => List.prefix_rfl⟩

theorem handed_trans {s t u : State} (h : Handed s t) (k : Handed t u) : Handed s u :=
  ⟨fun p => (h.tx p).trans (k.tx p)⟩

theorem handed_of_ports {s t : State} (hc : t.cellPort = s.cellPort) (hf : t.floorPort = s.floorPort) : Handed s t := by
  refine ⟨fun p => ?_⟩
  cases p
  · exact (congrArg PortState.tx hc) ▸ List.prefix_rfl
  · exact (congrArg PortState.tx hf) ▸ List.prefix_rfl

/-! ## What each operation hands on -/

theorem handTo_tx (p : Port) (fr : OutFrame) (s : State) :
    (getPort (handTo p fr s) p).tx =
      if (getPort s p).tx.length < 256 then (getPort s p).tx ++ [fr] else (getPort s p).tx := by
  simp only [handTo, getPort_setPort_same]
  rfl

theorem handTo_tx_other (p : Port) (fr : OutFrame) (s : State) :
    (getPort (handTo p fr s) (otherPort p)).tx = (getPort s (otherPort p)).tx := by
  simp [handTo]

theorem handTo_handed (p : Port) (fr : OutFrame) (s : State) : Handed s (handTo p fr s) := by
  refine ⟨fun q => ?_⟩
  obtain rfl | rfl : q = p ∨ q = otherPort p := by cases p <;> cases q <;> decide
  · rw [handTo_tx]
    split
    · exact List.prefix_append ..
    · exact List.prefix_rfl
  · exact (handTo_tx_other p fr s).symm ▸ List.prefix_rfl

theorem originate_handed (p : Port) (k : Kind) (a : Addr) (lvl : Byte) (tag : BitVec 16) (lot : LotIdent) (b : List Byte)
    (s : State) : Handed s (originate p k a lvl tag lot b s) := handTo_handed ..

theorem forward_handed (k : Byte) (lead : List Byte) (f : Frame) (s : State) : Handed s (forward k lead f s) :=
  handTo_handed ..

theorem answer_handed (a : Asker) (n : List Byte) (code : AnswerCode) (b : List Byte) (s : State) :
    Handed s (answer a n code b s) := originate_handed ..

theorem reply_handed (c : Command) (f : Frame) (code : AnswerCode) (b : List Byte) (s : State) :
    Handed s (reply c f code b s) := answer_handed ..

theorem notice_handed (k : NoticeKind) (lot : LotIdent) (b : List Byte) (s : State) : Handed s (notice k lot b s) := by
  unfold notice
  split
  · exact handed_refl s
  · exact originate_handed ..

theorem sendCommand_handed (k : Kind) (a : Option Addr) (lot : LotIdent) (b : List Byte) (s : State) :
    Handed s (sendCommand k a lot b s) := by
  unfold sendCommand
  split
  · exact handed_refl s
  · exact originate_handed ..

theorem sendBoth_handed (k : Kind) (c : CellId) (lot : LotIdent) (b : List Byte) (s : State) :
    Handed s (sendBoth k c lot b s) := handed_trans (sendCommand_handed ..) (sendCommand_handed ..)

theorem sendFetch_handed (lot : LotIdent) (b : List Byte) (s : State) : Handed s (sendFetch lot b s) := by
  unfold sendFetch
  split
  · exact handed_refl s
  · exact originate_handed ..

theorem setCell_handed (c : CellId) (x : Cell) (s : State) : Handed s (setCell c x s) := handed_of_ports rfl rfl

theorem modCell_handed (c : CellId) (g : Cell → Cell) (s : State) : Handed s (modCell c g s) := setCell_handed ..

theorem setLot_handed (i : SlotId) (x : Option Lot) (s : State) : Handed s (setLot i x s) := handed_of_ports rfl rfl

theorem modLot_handed (i : SlotId) (g : Lot → Lot) (s : State) : Handed s (modLot i g s) := by
  unfold modLot
  split
  · exact setLot_handed ..
  · exact handed_refl s

theorem enterLotState_handed (i : SlotId) (n : LotState) (e : Option CellId) (s : State) :
    Handed s (enterLotState i n e s) := by
  unfold enterLotState
  split
  · exact handed_refl s
  · exact handed_trans (setLot_handed ..) (notice_handed ..)

theorem enterCellState_handed (c : CellId) (n : CellState) (g : Cell → Cell) (s : State) :
    Handed s (enterCellState c n g s) := handed_trans (modCell_handed ..) (notice_handed ..)

/-! ## A frame Handed to a port with room is there -/

theorem handTo_mem {p : Port} {fr : OutFrame} {s t u : State} (before : Handed s t) (after : Handed (handTo p fr t) u)
    (room : (getPort u p).tx.length < 256) : fr ∈ handedOn p s u := by
  obtain ⟨more, h⟩ := before.tx p
  obtain ⟨rest, k⟩ := after.tx p
  have short : (getPort t p).tx.length < 256 := by
    have := ((handTo_handed p fr t).tx p |>.trans (after.tx p)).length_le
    omega
  rw [handTo_tx, if_pos short, ← h] at k
  simp [handedOn, ← k]

theorem originate_mem {p : Port} {k : Kind} {a : Addr} {lvl : Byte} {tag : BitVec 16} {lot : LotIdent} {b : List Byte}
    {s t u : State} (before : Handed s t) (link : t.link = s.link) (after : Handed (originate p k a lvl tag lot b t) u)
    (room : (getPort u p).tx.length < 256) : ∃ fr ∈ handedOn p s u, originated (kindByte k) a lot b s fr :=
  ⟨_, handTo_mem before after room, lvl, tag, by simp [headerBytes, link]⟩

theorem sendBoth_mem {k : Kind} {c : CellId} {lot : LotIdent} {b : List Byte} {s t u : State} (before : Handed s t)
    (link : t.link = s.link) (after : Handed (sendBoth k c lot b t) u) (room : (getPort u .cell).tx.length < 256)
    (tester : (getCell u c).tester = (getCell t c).tester) (handler : (getCell u c).handler = (getCell t c).handler) :
    toBoth (kindByte k) c lot b s u := by
  refine ⟨fun a h => ?_, fun a h => ?_⟩
  · rw [tester] at h
    refine originate_mem before link (handed_trans ?_ (handed_trans (sendCommand_handed ..) after)) room
      (lvl := freeLevel .cell t) (tag := Config.commandTag t.cellPort.handed)
    simp [sendCommand, h, handed_refl]
  · rw [handler] at h
    have after' : Handed (sendCommand k (some a) lot b (sendCommand k (getCell t c).tester lot b t)) u := h ▸ after
    refine originate_mem (handed_trans before (sendCommand_handed ..)) ?_ after' room
    simp [link]

/-- A notice made on the way from one state to another, where both queues end with room, is told. -/
theorem notice_told {k : NoticeKind} {lot : LotIdent} {b : List Byte} {what : List Byte → Prop} {s t u : State}
    (before : Handed s t) (link : t.link = s.link) (stations : t.stations = s.stations)
    (after : Handed (notice k lot b t) u) (room : ∀ p, (getPort u p).tx.length < 256) (hb : what b) :
    told (BitVec.ofNat 8 (noticeCode k)) lot what s u := by
  intro a p ha hp
  have same : stationAt t a = stationAt s a := by simp only [stationAt, stations]
  have port : noticePort t a = p := by
    rw [← hp, noticePort, same] <;> cases stationAt s a <;> rfl
  rw [notice, link, ha] at after
  obtain ⟨fr, hf, ho⟩ := originate_mem before link after (room _)
  exact ⟨fr, port ▸ hf, b, hb, ho⟩

/-- What is told of a step that more frames follow stays told. -/
theorem told_after {k : Byte} {lot : LotIdent} {what : List Byte → Prop} {s t u : State} (h : told k lot what s t)
    (before : Handed s t) (after : Handed t u) : told k lot what s u := by
  intro a p ha hp
  obtain ⟨fr, hf, rest⟩ := h a p ha hp
  obtain ⟨more, hm⟩ := before.tx p
  obtain ⟨others, hu⟩ := after.tx p
  refine ⟨fr, ?_, rest⟩
  simp only [handedOn, ← hu, ← hm, List.append_assoc, List.drop_left] at hf ⊢
  exact List.mem_append_left _ hf

end Sys2Proof.Laws
end

