-- ==== Sys2Proof/Tests/Slice0.lean ====
section
/-! SUPPORT. Tests: commands the well-formedness checks refuse, frames spelled byte by byte, worked examples of the
manual, single commands on a small floor, and for each statement of the obligations a floor that meets its hypotheses. -/

namespace Sys2Proof.Tests

open Sys2Proof Sys2Proof.Machine

/-! ## A small floor -/

/-- An identifier of sixteen equal characters. -/
def ident (c : Byte) : LotIdent := Vector.replicate 16 c

/-- A product identifier of twelve equal characters. -/
def productIdent (c : Byte) : ProductIdent := Vector.replicate 12 c

/-- A program name. -/
def program (c : Byte) : ProgramName := ⟨Vector.replicate 8 c, 1⟩

/-- A product: bin 1 passes, bin 3 is retested, two sites at least. -/
def product : Product :=
  { blankProduct with
    ident := productIdent 80
    program := program 70
    passBins := 2
    retestBins := 8
    maxRetest := 1
    minSample := 1000
    failRunLimit := 3
    minActive := 1
    expectedYield := 9400
    inUse := 1 }

/-- A group with one golden unit. -/
def group : Group := { blankGroup with golden := [⟨7, 1⟩], blockWait := 5000, loadRetries := 1 }

/-- The stations of the floor: floor server, a cell's tester and handler, file server, QA, dock, a console, and an
engineer. -/
def stations : Vector (Option Station) 64 :=
  (((((((State.reset.stations.set 0 (some ⟨400, .floor, 0, .floor, none⟩)).set 1
    (some ⟨1000, .tester, 3, .cell, some 0⟩)).set 2 (some ⟨2000, .handler, 3, .cell, some 0⟩)).set 3
    (some ⟨450, .fileServer, 3, .floor, none⟩)).set 4 (some ⟨440, .qa, 3, .floor, none⟩)).set 5
    (some ⟨430, .dock, 3, .floor, none⟩)).set 6 (some ⟨420, .console, 3, .floor, none⟩)).set 7
    (some ⟨410, .engineering, 1, .floor, none⟩)

/-- Cell 0 in service, IDLE. -/
def cell0 : Cell :=
  { Cell.cold with
    tester := some 1000
    handler := some 2000
    siteCount := 2
    installed := 3
    active := 3
    source := .either
    state := .idle
    qual := .qualified }

/-- A lot of the product. -/
def lot0 : Lot := newLot State.reset (ident 65) 0 20 2

/-- A floor in operation whose cell 0 and slot 0 are as given. -/
def floor (x : Cell) (l : Option Lot) : State :=
  { State.reset with
    mode := .operating
    mono := 100
    stations := stations
    link := ⟨65534, 0x9A41, some 400, 60000⟩
    nextSeq := 2
    products := State.reset.products.set 0 (some product)
    programs := State.reset.programs.set 0 (some ⟨program 70, 2⟩)
    plans := State.reset.plans.set 0 (some [⟨500, 50, 1⟩])
    groups := State.reset.groups.set 0 (some group)
    cells := State.reset.cells.set 0 x
    lots := State.reset.lots.set 0 l }

/-- The floor with lot 0 on cell 0. -/
def paired (ls : LotState) (cs : CellState) (also : Cell → Cell) : State :=
  floor (also { cell0 with state := cs, lot := some 0 }) (some { lot0 with state := ls, cell := some 0 })

/-- The floor with lot 0 off any cell. -/
def unpaired (l : Lot) : State := floor cell0 (some l)

/-- A director command of a station. -/
def command (src : Addr) (level : Byte) (lot : LotIdent) (body : List Byte) : Frame :=
  ⟨.floor, 0x9A41, ⟨2, 65534, src, level, 0, 7, lot⟩, body, [], none⟩

/-- A command of the floor server that names no lot. -/
def floorCommand (body : List Byte) : Frame := command 400 0 noLot body

/-- A frame of cell 0's equipment to the floor server. -/
def equipment (src : Addr) (lot : LotIdent) (body : List Byte) : Frame :=
  ⟨.cell, 0x9A41, ⟨2, 400, src, 3, 0, 0, lot⟩, body, [], none⟩

/-- A frame of the file server to cell 0's tester. -/
def segment : Frame := ⟨.floor, 0x9A41, ⟨2, 1000, 450, 3, 0, 0, noLot⟩, [], [], none⟩

/-- The state a command leaves; the state before it where it answers none. -/
def after (i : Instr) (s : State) : State :=
  match exec i s with
  | .next t => t
  | _ => s

/-! ## Meeting the hypotheses that are not decided -/

theorem authorised_of {n : Level} {f : Frame} {s : State}
    (h : (match linkFate f s with
      | .openToDirector => true
      | .toDirector st => mayCommand st.role && decide (effectiveLevel st f ≤ n)
      | _ => false) = true) : authorised n f s := by
  unfold authorised
  split at h
  · exact .inl ‹_›
  · rename_i st hs
    simp only [Bool.and_eq_true, decide_eq_true_eq] at h
    exact .inr ⟨st, hs, h.1, h.2⟩
  · cases h

theorem requestReaches_of {r : Role} {f : Frame} {s : State}
    (h : (match linkFate f s with
      | .openToDirector => true
      | .toDirector st => decide (st.role = r)
      | _ => false) = true) : requestReaches r f s := by
  unfold requestReaches
  split at h
  · exact .inl ‹_›
  · rename_i st hs
    exact .inr ⟨st, hs, of_decide_eq_true h⟩
  · cases h

theorem fromEquipment_of {a : EquipmentSide} {n : Nat} {f : Frame} {s : State} {c : CellId}
    (h : (match linkFate f s with
      | .across st => decide (attribution a st f s = some c) && decide (f.body.length = n)
      | _ => false) = true) : fromEquipment a n f s c := by
  unfold fromEquipment
  split at h
  · rename_i st hs
    simp only [Bool.and_eq_true, decide_eq_true_eq] at h
    exact ⟨st, hs, h.1, h.2⟩
  · cases h

theorem fromFileServer_of {f : Frame} {s : State} {c : CellId}
    (h : (match linkFate f s with
      | .across st => decide (st.role = .fileServer) && decide (cellOfTester s f.hdr.dst = some c)
      | _ => false) = true) : fromFileServer f s c := by
  unfold fromFileServer
  split at h
  · rename_i st hs
    simp only [Bool.and_eq_true, decide_eq_true_eq] at h
    exact ⟨st, .inl hs, h.1, h.2⟩
  · cases h

theorem lots_of {p : SlotId → Lot → Bool} {s : State}
    (h : (allSlots.all fun i =>
      match getLot s i with
      | some l => p i l
      | none => true) = true) : ∀ i l, getLot s i = some l → p i l = true := by
  intro i l hl
  have := List.all_eq_true.mp h i (List.mem_finRange i)
  simpa [hl] using this

/-! ## Well-formedness: each check refuses a command -/

theorem test_wellFormed_takes_a_frame : wellFormed 0x9A41 (.workRequest (equipment 2000 noLot [])) = true := by decide

theorem test_wellFormed_refuses_another_type :
    wellFormed 0x9A40 (.workRequest (equipment 2000 noLot [])) = false := by decide

theorem test_wellFormed_refuses_a_long_body (f : Frame) (h : f.body.length = 65535) : bodyFits [13] f = false := by
  simp [bodyFits, h]

theorem test_wellFormed_refuses_version_3 :
    wellFormed 0x9A41 (.workRequest ⟨.cell, 0x9A41, ⟨3, 400, 2000, 3, 0, 0, noLot⟩, [], [], none⟩) = false := by decide

theorem test_wellFormed_refuses_a_high_flag :
    wellFormed 0x9A41 (.workRequest ⟨.cell, 0x9A41, ⟨2, 400, 2000, 3, 2, 0, noLot⟩, [], [], none⟩) = false := by decide

theorem test_wellFormed_refuses_station_0 :
    wellFormed 0x9A41 (.workRequest ⟨.cell, 0x9A41, ⟨2, 400, 0, 3, 0, 0, noLot⟩, [], [], none⟩) = false ∧
    wellFormed 0x9A41 (.workRequest ⟨.cell, 0x9A41, ⟨2, 0, 2000, 3, 0, 0, noLot⟩, [], [], none⟩) = false := by decide

theorem test_wellFormed_refuses_a_broadcast_and_a_directors_frame :
    wellFormed 0x9A41 (.workRequest ⟨.cell, 0x9A41, ⟨2, 65535, 2000, 3, 0, 0, noLot⟩, [], [], none⟩) = false ∧
    wellFormed 0x9A41 (.workRequest ⟨.cell, 0x9A41, ⟨2, 400, 2000, 3, 1, 0, noLot⟩, [], [], none⟩) = false := by decide

theorem test_wellFormed_refuses_a_dialogue_type_as_other_traffic :
    wellFormed 0x9A41 (.nonDialogueFrame .floor 0x9A41 []) = false := by decide

theorem test_wellFormed_refuses_a_good_payload_as_malformed :
    wellFormed 0x9A41 (.malformedFrame .floor (framePayload 1 [] (equipment 2000 noLot []))) = false := by decide

theorem test_wellFormed_refuses_a_known_kind_as_unrecognised :
    wellFormed 0x9A41 (.unrecognisedKind 1 (equipment 2000 noLot [])) = false ∧
    wellFormed 0x9A41 (.unrecognisedKind 99 (equipment 2000 noLot [])) = true := by decide

theorem test_wellFormed_separates_the_rows_of_one_command :
    wellFormed 0x9A41 (.holdRelease (floorCommand [0, 0])) = false ∧
    wellFormed 0x9A41 (.holdReleaseOverflow (floorCommand [0, 1])) = false ∧
    wellFormed 0x9A41 (.countersRead (floorCommand [1])) = false ∧
    wellFormed 0x9A41 (.countersReadClear (floorCommand [0])) = false := by decide

/-! ## Frames spelled byte by byte (Tables 10-1, 10-3, 10-5 and 3-5) -/

/-- A header from station 258 to station 65534, tag 9, naming no lot. -/
def headerHead (kind : Byte) : List Byte := [2, kind, 0xFF, 0xFE, 0x01, 0x02, 3, 0, 0, 9] ++ List.replicate 16 0

/-- The frame those bytes spell. -/
def spelled (body : List Byte) : Frame := ⟨.floor, 0x9A41, ⟨2, 65534, 258, 3, 0, 9, noLot⟩, body, [], none⟩

theorem test_decode_workRequest :
    ofWire none 0x9A41 .floor 0x9A41 (headerHead 1 ++ [0, 0]) = .workRequest (spelled []) := by decide

theorem test_decode_qaResult :
    ofWire none 0x9A41 .floor 0x9A41 (headerHead 11 ++ [0, 4, 0, 50, 0, 1]) = .qaResult (spelled [0, 50, 0, 1]) := by
  decide

theorem test_decode_lotPriority :
    ofWire none 0x9A41 .floor 0x9A41 (headerHead 13 ++ [0, 2, 21, 3]) = .lotPriority (spelled [3]) := by decide

theorem test_decode_holdRelease :
    ofWire none 0x9A41 .floor 0x9A41 (headerHead 13 ++ [0, 3, 25, 0, 4]) = .holdRelease (spelled [0, 4]) ∧
    ofWire none 0x9A41 .floor 0x9A41 (headerHead 13 ++ [0, 3, 25, 0, 0]) = .holdReleaseOverflow (spelled [0, 0]) := by
  decide

theorem test_decode_cellSetResume :
    ofWire none 0x9A41 .floor 0x9A41 (headerHead 13 ++ [0, 4, 15, 5, 0, 6]) = .cellSetResume (spelled [0, 6]) := by
  decide

theorem test_decode_unknown_kind :
    ofWire none 0x9A41 .floor 0x9A41 (headerHead 40 ++ [0, 0]) = .unrecognisedKind 40 (spelled []) := by decide

theorem test_decode_short_payload :
    ofWire none 0x9A41 .floor 0x9A41 (headerHead 1 ++ [0, 1]) = .malformedFrame .floor (headerHead 1 ++ [0, 1]) := by
  decide

/-! ## Worked examples of the manual -/

/-- Plan 2 of Table 2-3. -/
def plan2 : List Tier := [⟨500, 50, 0⟩, ⟨3200, 125, 1⟩, ⟨10000, 32, 32⟩]

theorem test_tiers_of_table_2_4 :
    tierFor plan2 1 = some ⟨500, 50, 0⟩ ∧ tierFor plan2 500 = some ⟨500, 50, 0⟩ ∧
    tierFor plan2 501 = some ⟨3200, 125, 1⟩ ∧ tierFor plan2 3200 = some ⟨3200, 125, 1⟩ ∧
    tierFor plan2 12000 = some ⟨10000, 32, 32⟩ := by decide

theorem test_yield_of_table_6_5 : touchdownYield 13 16 = 8125 ∧ newAverage 2329700 8125 4 = 2314093 := by decide

theorem test_settling_of_table_6_7 :
    newAverage 2432005 9500 3 = 2432004 ∧ newAverage 2432001 9500 3 = 2432000 ∧
    newAverage 2432000 9500 3 = 2432000 ∧ newAverage 2431995 9500 3 = 2431995 := by decide

theorem test_yield_of_table_11_3 : touchdownYield 6 8 = 7500 ∧ newAverage 2330000 7500 5 = 2317187 := by decide

theorem test_recorded_level_of_R143 :
    recordedLevel 3 (some 0) = 3 ∧ recordedLevel 1 (some 2) = 2 ∧ recordedLevel 2 none = 2 := by decide

theorem test_intents_of_R48 :
    mergeIntent .pause .unload = .unload ∧ mergeIntent .unload .pause = .unload ∧ mergeIntent .none .pause = .pause := by
  decide

theorem test_codes_above_15_are_bin_0_of_R104 : binOfCode 15 = 15 ∧ binOfCode 16 = 0 ∧ binOfCode 200 = 0 := by decide

theorem test_hold_ids_pass_over_0 : advanceId 65535 = 1 ∧ advanceId 1 = 2 := by decide

/-- The counts of L-V at its LOT_ENDs (Table 11-5). -/
def countsOfLV (pass b0 b1 b3 b6 pool : Nat) : Lot :=
  { lot0 with
    pass := pass, startQty := 500, tested := 500, pool := pool
    bins := ((((Vector.replicate 16 0).set 0 b0).set 1 b1).set 3 b3).set 6 b6 }

theorem test_retest_start_of_table_11_5 :
    retestLot { product with maxRetest := 2 } (countsOfLV 0 0 440 40 20 0) = countsOfLV 1 0 440 0 20 40 ∧
    closePass (countsOfLV 2 0 475 2 22 1) = countsOfLV 2 1 475 2 22 0 := by decide

theorem test_reconciliation_of_table_11_5 :
    reconcile product (countsOfLV 2 1 475 2 22 0) ⟨2, 475, 24⟩ = ⟨.mismatched, 475, 24⟩ ∧
    failCount product (countsOfLV 2 1 475 2 22 0) = 25 := by decide

/-! ## Single commands on the small floor -/

theorem test_lotEnter_clamps_its_class :
    (getLot (after (.lotEnter (command 400 0 (ident 66) ((productIdent 80).toList ++ [0, 9, 7]))) (floor cell0 none)) 0).map
      (fun l => (l.startQty, l.priority, l.entrySeq)) = some (9, 3, 2) := by decide +kernel

theorem test_workRequest_loads_where_no_program_is :
    (getCell (after (.workRequest (equipment 2000 noLot [])) { unpaired lot0 with queue := [0] }) 0).state = .loading := by
  decide

theorem test_workRequest_starts_where_the_program_is :
    (getCell (after (.workRequest (equipment 2000 noLot []))
      { floor { cell0 with loaded := some (program 70) } (some lot0) with queue := [0] }) 0).state = .running := by decide

/-- A TD_RESULT that reports sites 0 and 1 in bins 1 and 200. -/
def touchdown (n : Byte) : Frame :=
  equipment 1000 (ident 65) ([0, 0, 0, n, 0, 0, 3] ++ [1, 200] ++ List.replicate 14 0)

theorem test_tdResult_counts_its_sites :
    (getLot (after (.tdResult (touchdown 1)) (paired .testing .running id)) 0).map
      (fun l => (l.tested, l.bins[0], l.bins[1], l.lastTd)) = some (2, 1, 1, 1) := by decide

theorem test_tdResult_is_not_taken_twice :
    (after (.tdResult (touchdown 1)) (after (.tdResult (touchdown 1)) (paired .testing .running id))).counters.duplicateTd
      = 1 := by decide

theorem test_holdPlace_stops_a_testing_lot :
    (getCell (after (.holdPlace (command 400 0 (ident 65) [5, 1, 0, 0, 0])) (paired .testing .running id)) 0).state
      = .stopping := by decide

theorem test_unload_deadline_holds_the_lot :
    ((getLot (after (.unloadDeadlineExpiry 0)
      (paired .unloading .unloading fun x => { x with unloadDeadline := some 100 })) 0).map fun l => l.holds.map (·.reason))
      = some [136] := by decide

/-- A STOP to tester 1000 and one to handler 2000 about lot 0 in pass 0, kind 15 of Table 10-3. -/
theorem test_a_stop_goes_to_tester_and_handler :
    (after (.holdPlace (command 400 0 (ident 65) [5, 1, 0, 0, 0])) (paired .testing .running id)).cellPort.tx.map
      (fun fr => (fr.payload.take 4, fr.payload.drop 26))
      = [([2, 15, 0x03, 0xE8], [0, 2, 0, 0]), ([2, 15, 0x07, 0xD0], [0, 2, 0, 0])] := by decide

/-- A LOAD_SEGMENT to the director while COMMISSIONING goes on where its source is absent, and is counted where it is not. -/
theorem test_commissioning_forwards_an_absent_sources_segment :
    let frame := fun src => command src 0 noLot []
    let s := { unpaired lot0 with mode := .commissioning }
    (after (.loadSegment (frame 999)) s).counters.malformed = 0 ∧
    (after (.loadSegment (frame 999)) s).cellPort.tx.length = 1 ∧
    (after (.loadSegment (frame 450)) s).counters.malformed = 1 := by decide

theorem test_coldReset_reads_the_strap :
    (after (.coldReset 7) (unpaired lot0)).link.own = 7 ∧ (after (.coldReset 65535) (unpaired lot0)).link.own = 65534 := by
  decide

/-! ## Floors that meet the hypotheses of the statements -/

theorem witness_StepTakesTheFrontCommand :
    ({ State.reset with pending := [.sweepStep] } : State).pending = .sweepStep :: [] := by decide

theorem witness_NoCommandStopsTheDirector_expiry :
    dueExpiry (paired .testing .running fun x => { x with tdDeadline := some 100 }) = some (.touchdownDeadlineExpiry 0) := by decide +kernel

theorem witness_NoCommandStopsTheDirector_ports :
    dueExpiry (unpaired lot0) = none ∧ (unpaired lot0).pending = [] ∧ (unpaired lot0).cellPort.rx = [] ∧
    (unpaired lot0).floorPort.rx = [] ∧ (unpaired lot0).sweep = none ∧ (unpaired lot0).cellPort.tx = [] ∧
    (unpaired lot0).floorPort.tx = [] := by decide +kernel

theorem witness_EncodedFramesDecodeToTheirCommand :
    wellFormed 0x9A41 (.workRequest (equipment 2000 noLot [])) = true ∧
    (encode 0x9A41 (.workRequest (equipment 2000 noLot []))).isSome = true ∧ (equipment 2000 noLot []).heardAs = none := by decide

theorem witness_ArrivalsWaitAndPortsSendInOrder :
    64 ≤ (getPort { State.reset with cellPort := ⟨List.replicate 64 .sweepStep, [], none, 0⟩ } .cell).rx.length ∧
    (getPort State.reset .cell).rx.length < 64 ∧
    256 ≤ (getPort { State.reset with floorPort := ⟨[], List.replicate 256 ⟨0, []⟩, none, 0⟩ } (otherPort .cell)).tx.length := by decide +kernel

theorem witness_FramesThatAreNotActedOn_malformed :
    frameRow? (.workRequest ⟨.cell, 0x9A41, ⟨3, 400, 2000, 3, 0, 0, noLot⟩, [], [], none⟩) =
      some (1, [], ⟨.cell, 0x9A41, ⟨3, 400, 2000, 3, 0, 0, noLot⟩, [], [], none⟩) ∧
    (headerOf (framePayload 1 [] (equipment 2000 noLot []))).version = 2 := by decide

theorem witness_FramesThatAreNotActedOn_unknown :
    frameRow? (.lotQuery (command 999 0 noLot [0, 0])) = some (13, [27], command 999 0 noLot [0, 0]) ∧
    (unpaired lot0).mode = .operating ∧ stationAt (unpaired lot0) 999 = none ∧
    (command 999 0 noLot [0, 0]).hdr.dst = (unpaired lot0).link.own := by decide

theorem witness_UnrecognisedKindsAreForwardedOrCounted :
    linkFate (equipment 2000 noLot []) (unpaired lot0) = .across ⟨2000, .handler, 3, .cell, some 0⟩ ∧
    linkFate (command 440 0 noLot [15]) (unpaired lot0) = .toDirector ⟨440, .qa, 3, .floor, none⟩ ∧
    mayCommand .qa = false ∧ effectiveLevel ⟨410, .engineering, 1, .floor, none⟩ (command 410 2 noLot [15]) = 2 ∧
    linkFate (floorCommand []) State.reset = .openToDirector ∧
    linkFate { floorCommand [] with hdr := { (floorCommand []).hdr with dst := 9 } } State.reset = .openAcross none := by decide

theorem witness_CommandsNeedTheirLevelAndAreAnswered :
    commandRow? (.timeSet (command 420 0 noLot [0, 0, 0, 0])) = some (.timeSet, 0, command 420 0 noLot [0, 0, 0, 0]) ∧
    linkFate (command 420 0 noLot [0, 0, 0, 0]) (unpaired lot0) = .toDirector ⟨420, .console, 3, .floor, none⟩ ∧
    readQaResult [0, 50, 0, 1] = some (50, 1) := by decide

theorem witness_AnswersAndNoticesCarryTheirFields :
    State.reset.link.notice = none ∧ (unpaired lot0).link.notice = some 400 ∧
    (stationAt (unpaired lot0) 400).map (·.side) = some .floor ∧ (getPort (unpaired lot0) .floor).tx.length < 256 := by decide

theorem witness_WarmResetKeepsTheTables :
    authorised 0 (floorCommand []) (paired .testing .running id) ∧
    (floorCommand []).body = [] ∧ cellLot (paired .testing .running id) 0 ≠ none ∧
    (getCell (paired .unloading .unloading id) 0).state = .unloading ∧
    (getCell (floor { cell0 with state := .loading, qual := .due } none) 0).qual = .due ∧
    (getCell (floor { cell0 with state := .correlating } none) 0).state = .correlating ∧
    (getCell (floor { cell0 with reserved := some 0 } none) 0).reserved ≠ none :=
  ⟨authorised_of (by decide), by decide⟩

theorem witness_SettingsChangeOnlyByTheirCommands :
    exec .sweepStep (unpaired lot0) = .next (unpaired lot0) ∧ ∀ strap, Instr.sweepStep ≠ .coldReset strap :=
  ⟨rfl, fun _ => nofun⟩

/-- A lot that waits under an advisory hold. -/
def waitingLot : Lot := { lot0 with holds := [⟨4, 5, .advisory, 2, .station 420, 0⟩] }

/-- A director with one product, its program and plan, and one waiting lot, five milliseconds after reset. -/
def later : State :=
  { State.reset with
    mono := 5
    nextSeq := 2
    nextHoldId := 5
    products := State.reset.products.set 0 (some product)
    programs := State.reset.programs.set 0 (some ⟨program 70, 2⟩)
    plans := State.reset.plans.set 0 (some [⟨500, 50, 1⟩])
    lots := State.reset.lots.set 0 (some waitingLot)
    queue := [0] }

theorem later_lots (i : SlotId) : getLot later i = if i = 0 then some waitingLot else none := by
  show ((Vector.replicate 256 none).set 0 (some waitingLot))[i.val] = _
  rw [Vector.getElem_set]
  by_cases h : i = 0
  · simp [h]
  · have : ¬ 0 = i.val := fun e => h (Fin.ext e.symm)
    simp [h, this]

theorem later_lot {i : SlotId} {l : Lot} (h : getLot later i = some l) : i = 0 ∧ l = waitingLot := by
  rw [later_lots] at h
  split at h
  · exact ⟨‹_›, (Option.some.inj h).symm⟩
  · cases h

theorem one_entry {n : Nat} {α : Type} [NeZero n] (x : α) (i : Fin n) :
    ((Vector.replicate n (none : Option α)).set 0 (some x) (Nat.pos_of_neZero n))[i.val] = if i.val = 0 then some x else none := by
  rw [Vector.getElem_set]
  by_cases h : i.val = 0
  · simp [h]
  · simp [h, Ne.symm h]

theorem one_entry_of {n : Nat} {α : Type} [NeZero n] {x y : α} {i : Fin n}
    (h : ((Vector.replicate n (none : Option α)).set 0 (some x) (Nat.pos_of_neZero n))[i.val] = some y) : i.val = 0 ∧ y = x := by
  rw [one_entry] at h
  split at h
  · exact ⟨‹_›, (Option.some.inj h).symm⟩
  · cases h

theorem later_program {i : ProgramIx} {p : Program} (h : later.programs[i] = some p) : i = 0 ∧ p = ⟨program 70, 2⟩ :=
  (one_entry_of h).imp_left Fin.val_eq_zero_iff.mp

theorem later_plan {i : PlanId} {p : List Tier} (h : later.plans[i] = some p) : i = 0 ∧ p = [⟨500, 50, 1⟩] :=
  (one_entry_of h).imp_left Fin.val_eq_zero_iff.mp

theorem later_product {i : ProductId} {p : Product} (h : later.products[i] = some p) : i = 0 ∧ p = product :=
  (one_entry_of h).imp_left Fin.val_eq_zero_iff.mp

theorem later_cells (c : CellId) : getCell later c = Cell.cold := by
  show (Vector.replicate 32 Cell.cold)[c.val] = _
  exact Vector.getElem_replicate ..

set_option maxRecDepth 8000 in
theorem later_step : step later = .next { later with mono := 6 } := by
  rfl

theorem witness_EveryStepKeepsLotsAndCellsPaired : pairsKept later ∧ step later = .next { later with mono := 6 } := by
  refine ⟨⟨?_, ?_, ?_, ?_, ?_⟩, later_step⟩
  · intro i l h
    obtain ⟨rfl, rfl⟩ := later_lot h
    exact ⟨by decide, fun c hc => (by cases hc), ⟨fun _ => by decide, fun hr => (by cases hr)⟩, fun c hc => (by cases hc)⟩
  · intro c i h
    simp [later_cells, Cell.cold] at h
  · intro c
    simp [later_cells, Cell.cold, recordsFit, mayBeEmpty]
  · refine ⟨by decide, fun i => ⟨fun h => ?_, fun ⟨l, h, _⟩ => ?_⟩⟩
    · obtain rfl : i = 0 := by simpa [later] using h
      exact ⟨waitingLot, later_lots 0, by decide⟩
    · obtain ⟨rfl, _⟩ := later_lot h
      decide
  · refine ⟨List.nodup_nil, fun i => ⟨fun h => (by cases h), fun ⟨l, h, hr⟩ => ?_⟩⟩
    obtain ⟨_, rfl⟩ := later_lot h
    cases hr

theorem witness_EveryStepKeepsTheLotRecords : recordsKept later ∧ step later = .next { later with mono := 6 } := by
  refine ⟨⟨?_, ?_, ?_, by decide, by decide⟩, later_step⟩
  · intro i j l m hn h h'
    exact absurd ((later_lot h).1.trans (later_lot h').1.symm) hn
  · intro i l h
    obtain ⟨rfl, rfl⟩ := later_lot h
    refine ⟨by decide, fun _ => by decide, fun h => ?_⟩
    cases (show later.products[waitingLot.product] = some product from rfl).symm.trans h
  · intro p e h
    obtain ⟨rfl, rfl⟩ := later_product h
    decide +kernel

theorem witness_EveryStepKeepsLotsAndCellsPaired_order :
    pairsKept later ∧ recordsKept later ∧ queueOrdered later ∧ step later = .next { later with mono := 6 } :=
  ⟨witness_EveryStepKeepsLotsAndCellsPaired.1, witness_EveryStepKeepsTheLotRecords.1, List.pairwise_singleton _ _, later_step⟩

/-- Two lots of one class stand by entry sequence: the order holds one way round and not the other. -/
theorem witness_EveryStepKeepsLotsAndCellsPaired_order_bounds :
    let s := fun q => { unpaired lot0 with
      lots := (State.reset.lots.set 0 (some lot0)).set 1 (some { lot0 with ident := ident 66, entrySeq := 2 })
      queue := q }
    queueOrdered (s [0, 1]) ∧ ¬ queueOrdered (s [1, 0]) := by
  refine ⟨List.pairwise_pair.mpr fun l m h h' => ?_, fun h => ?_⟩
  · obtain rfl := Option.some.inj h
    obtain rfl := Option.some.inj h'
    exact .inr ⟨rfl, by decide⟩
  · exact absurd (List.pairwise_pair.mp h _ _ rfl rfl) (by decide)

/-- The records of a state that differs from `later` in its link and hold list alone. -/
theorem told_premises (notice : Option Addr) :
    let s := { later with link := { later.link with notice := notice } }
    pairsKept s ∧ recordsKept s :=
  ⟨witness_EveryStepKeepsLotsAndCellsPaired.1, witness_EveryStepKeepsTheLotRecords.1⟩

/-- A hold that takes the waiting lot off the queue, told to a notice station. -/
theorem witness_AnswersAndNoticesCarryTheirFields_changes :
    let s := { later with link := { later.link with notice := some 400 } }
    let i := Instr.holdPlace (command 400 0 (ident 65) [6, 1, 0, 0, 0])
    exec i s = .next (after i s) ∧ (∀ strap, i ≠ .coldReset strap) ∧ pairsKept s ∧ recordsKept s ∧
    (∀ p, (getPort (after i s) p).tx.length < 256) ∧ s.link.notice = some 400 ∧
    (getLot (after i s) 0).map (fun l => (l.state, l.holds.length)) = some (.held, 2) :=
  ⟨rfl, nofun, (told_premises _).1, (told_premises _).2, fun p => by cases p <;> decide, by decide, by decide⟩

/-- A release that takes the waiting lot's hold away, told to a notice station. -/
theorem witness_AnswersAndNoticesCarryTheirFields_removal :
    let s := { later with link := { later.link with notice := some 400 } }
    let i := Instr.holdRelease (command 400 0 (ident 65) [0, 4])
    exec i s = .next (after i s) ∧ pairsKept s ∧ recordsKept s ∧
    (∀ p, (getPort (after i s) p).tx.length < 256) ∧ (getLot (after i s) 0).map (fun l => l.holds) = some [] :=
  ⟨rfl, (told_premises _).1, (told_premises _).2, fun p => by cases p <;> decide, by decide⟩

theorem witness_EveryStepKeepsTheUnits : unitsKept later ∧ step later = .next { later with mono := 6 } := by
  refine ⟨fun i l h => ?_, later_step⟩
  obtain ⟨rfl, rfl⟩ := later_lot h
  exact ⟨by decide, by decide, by decide⟩

theorem witness_EveryStepKeepsTheHoldLists : holdsKept later ∧ step later = .next { later with mono := 6 } := by
  refine ⟨⟨fun i l h => ?_, fun i j l m a b hn h h' => ?_, by decide, by decide⟩, later_step⟩
  · obtain ⟨rfl, rfl⟩ := later_lot h
    exact ⟨⟨by decide, List.pairwise_singleton _ _⟩, List.pairwise_singleton _ _, by simp [waitingLot, holdKept]⟩
  · exact absurd ((later_lot h).1.trans (later_lot h').1.symm) hn

theorem later_tables : tablesKept later := by
  have groups : ∀ i : GroupId, later.groups[i] = none := fun i => Vector.getElem_replicate ..
  refine ⟨?_, ?_, ?_, ?_, ⟨by decide, List.Pairwise.nil, fun o h => by cases h⟩, ?_, ?_, ?_, ?_, fun o h => by cases h⟩
  · intro i p h
    obtain ⟨rfl, rfl⟩ := later_product h
    refine ⟨by decide, by decide, by decide, by decide, by decide, by decide, by decide, by decide, by decide, by decide,
      fun k limit h => ?_, by decide, by decide, by decide, by decide, by decide, by decide⟩
    cases (Vector.getElem_replicate .. : product.binLimits[k.val] = none).symm.trans h
  · intro i p h
    obtain ⟨rfl, rfl⟩ := later_program h
    unfold programKept
    decide
  · intro i p h
    obtain ⟨rfl, rfl⟩ := later_plan h
    unfold planKept
    decide
  · intro i p h
    simp [groups] at h
  · intro i j p q hn h h'
    exact absurd ((later_product h).1.trans (later_product h').1.symm) hn
  · intro i j p q hn h h'
    exact absurd ((later_program h).1.trans (later_program h').1.symm) hn
  · intro i p h
    obtain ⟨rfl, rfl⟩ := later_product h
    exact ⟨by decide, 0, ⟨program 70, 2⟩, by decide, by decide⟩
  · intro i g c h
    simp [groups] at h

theorem witness_EveryStepKeepsTheTables : tablesKept later ∧ step later = .next { later with mono := 6 } :=
  ⟨later_tables, later_step⟩

theorem witness_EveryStepKeepsTheCells :
    tablesKept later ∧ cellsKept later ∧ step later = .next { later with mono := 6 } := by
  refine ⟨later_tables, ?_, later_step⟩
  intro c
  rw [later_cells]
  refine ⟨by decide, by decide, by decide, by decide, ?_, by decide, by decide, by decide⟩
  intro k
  simp [Cell.cold]

theorem witness_EveryStepKeepsTheCells_sites :
    pairsKept later ∧ recordsKept later ∧ sitesKept later ∧ step later = .next { later with mono := 6 } := by
  refine ⟨witness_EveryStepKeepsLotsAndCellsPaired.1, witness_EveryStepKeepsTheLotRecords.1, fun c => ?_, later_step⟩
  rw [later_cells]
  exact ⟨fun _ => .inl rfl, fun h => (by cases h), fun i l h => (by cases h)⟩

theorem floor_cell (x : Cell) (l : Option Lot) (c : CellId) : getCell (floor x l) c = if c = 0 then x else Cell.cold := by
  show ((Vector.replicate 32 Cell.cold).set 0 x)[c.val] = _
  rw [Vector.getElem_set]
  by_cases h : c = 0
  · simp [h]
  · have : ¬ 0 = c.val := fun e => h (Fin.ext e.symm)
    simp [h, this]

theorem floor_lot (x : Cell) (l : Option Lot) : getLot (floor x l) 0 = l := rfl

/-- A RUNNING cell with the one active site its lot's product asks for meets the law of sites; with none it does not. -/
theorem witness_EveryStepKeepsTheCells_sites_running :
    let x := fun sites => { cell0 with state := .running, lot := some 0, active := sites }
    let l := { lot0 with state := .testing, cell := some 0 }
    sitesKept (floor (x 1) (some l)) ∧ ¬ sitesKept (floor (x 0) (some l)) := by
  refine ⟨fun c => ?_, fun h => ?_⟩
  · rw [floor_cell]
    split
    · refine ⟨fun h => (by cases h), fun h => (by cases h), fun i l h h' => ?_⟩
      obtain rfl : 0 = i := Option.some.inj h
      rw [floor_lot] at h'
      obtain rfl := Option.some.inj h'
      exact ⟨fun _ => by decide, fun h => by cases h <;> contradiction⟩
    · exact ⟨fun _ => .inl rfl, fun h => (by cases h), fun i l h => (by cases h)⟩
  · exact absurd (((h 0).2.2 0 _ rfl (floor_lot _ _)).1 (.inl rfl)).2 (by decide)

theorem witness_EveryStepKeepsTheLink : linkKept later ∧ step later = .next { later with mono := 6 } := by
  have none_ : ∀ i : StationIx, later.stations[i] = none := fun i => Vector.getElem_replicate ..
  refine ⟨⟨?_, by decide, by decide, by decide, by decide, by decide, by decide, by decide, by decide, by decide,
    by decide, by decide, ?_, ?_, by decide⟩, later_step⟩
  · intro p
    cases p <;> decide
  · intro i st h
    simp [none_] at h
  · intro i j a b _ h
    simp [none_] at h

/-- A hold of level 2 by a console. -/
def hold2 : Hold := ⟨4, 5, .blocking, 2, .station 420, 0⟩

/-- The lot with that hold, HELD. -/
def held : Lot := { lot0 with state := .held, holds := [hold2] }

theorem witness_OnlySufficientAuthorityLiftsAHold_released :
    getLot (unpaired held) 0 = some held ∧ hold2 ∈ held.holds ∧
    ((getLot (after (.holdRelease (command 400 0 (ident 65) [0, 4])) (unpaired held)) 0).map (·.holds)) = some [] := by decide

theorem witness_OnlySufficientAuthorityLiftsAHold_freed :
    getLot (after (.lotWithdraw (command 400 0 (ident 65) [])) (unpaired held)) 0 = none := by decide

theorem witness_LotEntryMakesTheRecord :
    let body := (productIdent 80).toList ++ [0, 9, 7]
    let s := floor cell0 none
    authorised 2 (command 400 0 (ident 66) body) s ∧ (∀ j m, getLot s j = some m → m.ident ≠ ident 66) ∧
    readLotEnter body = some ⟨productIdent 80, 9, 7⟩ ∧ identPrintable (ident 66) = true ∧
    findProduct s (productIdent 80) = some 0 ∧ s.products[(0 : ProductId)] = some product ∧ getLot s 0 = none ∧
    (∀ j : SlotId, j < 0 → getLot s j ≠ none) ∧ s.seqExhausted = false ∧ (∀ c, waiting s c = false) :=
  ⟨authorised_of (by decide +kernel),
    fun j m h => of_decide_eq_true (lots_of (p := fun _ l => decide (l.ident ≠ ident 66)) (by decide +kernel) j m h),
    by decide +kernel⟩

/-- The refusals: a quantity of 0, characters 31 and 127 beside 32 and 126, another product, an identifier in use, and the
entry sequences all given. -/
theorem witness_LotEntryMakesTheRecord_refused :
    let body := (productIdent 80).toList ++ [0, 9, 7]
    let other := (productIdent 81).toList ++ [0, 9, 7]
    authorised 2 (command 400 0 (ident 65) body) (unpaired lot0) ∧
    authorised 2 (command 400 0 (ident 66) body) { unpaired lot0 with seqExhausted := true } ∧
    readLotEnter ((productIdent 80).toList ++ [0, 0, 7]) = some ⟨productIdent 80, 0, 7⟩ ∧
    identPrintable (ident 31) = false ∧ identPrintable (ident 32) = true ∧ identPrintable (ident 126) = true ∧
    identPrintable (ident 127) = false ∧ readLotEnter other = some ⟨productIdent 81, 9, 7⟩ ∧
    findProduct (unpaired lot0) (productIdent 81) = none ∧ getLot (unpaired lot0) 0 = some lot0 ∧ lot0.ident = ident 65 ∧
    findLot { unpaired lot0 with seqExhausted := true } (ident 66) = none :=
  ⟨authorised_of (by decide +kernel), authorised_of (by decide +kernel), by decide +kernel⟩

theorem witness_ClassChangesMoveALot :
    authorised 2 (command 400 0 (ident 65) [1]) (unpaired lot0) ∧
    readLotPriority [1] = some 1 ∧ findLot (unpaired lot0) (ident 65) = some 0 ∧ getLot (unpaired lot0) 0 = some lot0 ∧
    (∀ c, waiting (unpaired lot0) c = false) ∧ lot0.state = .queued ∧ lot0.priority < 3 ∧
    (unpaired { lot0 with agingStart := 0 }).link.aging ≠ 0 ∧
    0 + (unpaired lot0).link.aging ≤ ({ unpaired lot0 with mono := 60000 } : State).mono :=
  ⟨authorised_of (by decide), by decide⟩

theorem witness_WithdrawalMeetsTheInterlock :
    authorised 1 (command 410 0 (ident 65) []) (unpaired { held with holds := [{ hold2 with level := 0 }] }) ∧
    findLot (unpaired held) (ident 65) = some 0 ∧ held.state = .held ∧
    levelOf (command 410 0 (ident 65) []) (unpaired { held with holds := [{ hold2 with level := 0 }] }) = 1 ∧
    levelOf (command 400 0 (ident 65) []) (unpaired held) ≤ hold2.level ∧
    (unpaired held).products[(0 : ProductId)] = some product :=
  ⟨authorised_of (by decide), by decide⟩

theorem witness_ReadsReportAndChangeNothing_queue :
    authorised 3 (floorCommand (num 2 255 ++ num 2 64)) (unpaired lot0) ∧
    (floorCommand (num 2 255 ++ num 2 64)).body = num 2 255 ++ num 2 64 :=
  ⟨authorised_of (by decide), by decide⟩

theorem witness_ReadsReportAndChangeNothing_others :
    authorised 3 (floorCommand [0, 0]) (unpaired lot0) ∧
    readLotQuery [0, 0] = some 0 ∧ readLotQuery [1, 0] = some 256 ∧ getLot (unpaired lot0) 0 = some lot0 ∧
    [0, 0] = num 2 (0 : CellId).val ∧ readTableRead [1, 0, 0] = some (.product 0) :=
  ⟨authorised_of (by decide), by decide⟩

/-- The ends of the ranges: positions 0 and 255, counts 1 and 64, slots 255 and 256. -/
theorem witness_ReadsReportAndChangeNothing_bounds :
    readQueueRead (num 2 0 ++ num 2 1) = some (0, 1) ∧ readQueueRead (num 2 255 ++ num 2 64) = some (255, 64) ∧
    readQueueRead (num 2 256 ++ num 2 1) = none ∧ readQueueRead (num 2 0 ++ num 2 0) = none ∧
    readQueueRead (num 2 0 ++ num 2 65) = none ∧ readLotQuery (num 2 255) = some 255 ∧
    readLotQuery (num 2 256) = some 256 := by decide

/-- The floor with lot 0 queued and cell 0 asking for work. -/
def asking : State := { floor { cell0 with latch := true, latchTime := 9 } (some lot0) with queue := [0] }

theorem witness_ChoicesFollowTheirKeys :
    choose asking 0 (fun _ => true) = some 0 ∧ choose (unpaired lot0) 0 (fun _ => true) = none ∧
    getLot asking 0 = some lot0 ∧ waiting asking 0 = true ∧ eligible asking 0 lot0 = true ∧ waiting asking 1 = false := by decide

theorem witness_AssignmentStartsOrLoads :
    getLot asking 0 = some lot0 ∧ (getCell asking 0).loaded ≠ some (productOf asking lot0).program ∧
    (getCell (floor { cell0 with loaded := some (program 70), mode := .block } none) 0).loaded
      = some (productOf asking lot0).program := by decide

theorem witness_RequestsForWorkLatchOrAssign :
    fromEquipment .handler 0 (equipment 2000 noLot []) asking 0 ∧ authorised 2 (floorCommand [0, 0]) asking ∧
    (getCell asking 0).state = .idle ∧ isStandby asking 0 = false ∧ (getCell asking 0).source = .either ∧
    choose asking 0 (fun _ => true) = some 0 ∧ (getCell (floor { cell0 with source := .floor } none) 0).source = .floor :=
  ⟨fromEquipment_of (by decide), authorised_of (by decide), by decide⟩

theorem witness_RequestClearKeepsTheReservation :
    authorised 2 (floorCommand [0, 0]) (asking) ∧
    [0, 0] = num 2 (0 : CellId).val ∧ (getCell asking 0).latch = true ∧ [0, 32] = num 2 32 ∧
    (getCell (floor { cell0 with reserved := some 0, blockDeadline := some 100 } none) 0).blockDeadline = some 100 ∧
    100 ≤ (floor cell0 none).mono :=
  ⟨authorised_of (by decide), by decide⟩

/-- The ends of the ranges: cells 31, 32 and 65535. -/
theorem witness_RequestClearKeepsTheReservation_bounds :
    readCell (num 2 31) = some 31 ∧ readCell (num 2 32) = none ∧ readCell (num 2 65535) = none := by decide

theorem witness_BlocksEndByCommandOrExpiry :
    authorised 1 (floorCommand [0, 0]) (floor { cell0 with reserved := some 0, blockRemaining := 1 } none) ∧
    (getCell (floor { cell0 with reserved := some 0 } none) 0).reserved ≠ none ∧ waiting asking 0 = true ∧
    choose (setCell 0 { getCell asking 0 with reserved := none, blockRemaining := 0, blockDeadline := none } asking) 0
      (fun _ => true) = some 0 :=
  ⟨authorised_of (by decide), by decide⟩

/-- A product for the second entry of the table. -/
def product2 : Product := { product with ident := productIdent 81, inUse := 0 }

theorem witness_ProductCommandsChangeTheEntry :
    let body := num 2 1 ++ productBytes product2
    let s := unpaired lot0
    authorised 0 (floorCommand body) s ∧ readProductWrite body = some (1, product2) ∧ identPrintable product2.ident = true ∧
    inSet product2.passBins 0 = false ∧ s.plans[product2.plan] ≠ none ∧ s.products[(1 : ProductId)] = none ∧
    s.products[(0 : ProductId)] = some product ∧ product.ident ≠ product2.ident ∧ findProgram s product2.program ≠ none ∧
    (∀ c, waiting s c = false) :=
  ⟨authorised_of (by decide +kernel), by decide +kernel⟩

/-- One body for each refusal of PRODUCT_WRITE, in the order of its checks, and the ends of a character's range. -/
theorem witness_ProductCommandsChangeTheEntry_refused :
    let s := unpaired lot0
    let body := fun (i : Nat) (p : Product) => num 2 i ++ productBytes p
    authorised 0 (floorCommand [0]) s ∧ readProductWrite [0] = none ∧
    readProductWrite (body 0 { product2 with passBins := 3 }) = some (0, { product2 with passBins := 3 }) ∧
    inSet 3 0 = true ∧ s.plans[(1 : PlanId)] = none ∧
    readProductWrite (body 0 product2) = some (0, product2) ∧ s.products[(0 : ProductId)] = some product ∧ 0 < product.inUse ∧
    readProductWrite (body 1 { product with inUse := 0 }) = some (1, { product with inUse := 0 }) ∧
    readProductWrite (body 1 { product2 with program := program 71 }) = some (1, { product2 with program := program 71 }) ∧
    findProgram s (program 71) = none ∧
    identPrintable (productIdent 32) = true ∧ identPrintable (productIdent 126) = true ∧
    identPrintable (productIdent 31) = false ∧ identPrintable (productIdent 127) = false ∧
    (floorCommand [0, 64]).body = num 2 64 :=
  ⟨authorised_of (by decide +kernel), by decide +kernel⟩

theorem witness_ProductCommandsChangeTheEntry_delete :
    let s := { unpaired lot0 with products := State.reset.products.set 0 (some product2) }
    authorised 0 (floorCommand [0, 0]) s ∧ (floorCommand [0, 0]).body = num 2 (0 : ProductId).val ∧
    s.products[(0 : ProductId)] = some product2 ∧ product2.inUse = 0 ∧ 0 < product.inUse ∧ (∀ c, waiting s c = false) :=
  ⟨authorised_of (by decide), by decide⟩

theorem witness_LibraryPlanAndGroupWritesStoreTheirValues_programs :
    authorised 0 (floorCommand (programBytes (program 71) ++ [0, 3])) (unpaired lot0) ∧
    readProgramWrite (programBytes (program 71) ++ [0, 3]) = some ⟨program 71, 3⟩ ∧
    findProgram (unpaired lot0) (program 71) = none ∧ (unpaired lot0).programs[(1 : ProgramIx)] = none ∧
    findProgram (unpaired lot0) (program 70) = some 0 ∧ readProgramDelete (programBytes (program 70)) = some (program 70) :=
  ⟨authorised_of (by decide), by decide⟩

/-- The ends of the ranges: segment counts 0, 1, 4096 and 4097, versions 255 and 256. -/
theorem witness_LibraryPlanAndGroupWritesStoreTheirValues_bounds :
    programMalformed ⟨program 71, 1⟩ = false ∧ programMalformed ⟨program 71, 4096⟩ = false ∧
    programMalformed ⟨program 71, 0⟩ = true ∧ programMalformed ⟨program 71, 4097⟩ = true ∧
    programMalformed ⟨{ program 71 with version := 255 }, 1⟩ = false ∧
    programMalformed ⟨{ program 71 with version := 256 }, 1⟩ = true := by decide

theorem witness_LibraryPlanAndGroupWritesStoreTheirValues_groups :
    readPlanWrite ([0, 2] ++ listOf tierBytes [⟨5, 5, 9⟩, ⟨6, 7, 0⟩]) = some (2, [⟨5, 5, 9⟩, ⟨6, 7, 0⟩]) ∧
    readGroupWrite ([0, 1] ++ groupBytes group) = some (1, group) ∧ groupBusy (unpaired lot0) 1 = false ∧
    readGoldenWrite ([0, 0] ++ listOf goldenBytes [⟨9, 2⟩]) = some (0, [⟨9, 2⟩]) ∧
    (unpaired lot0).groups[(0 : GroupId)] = some group ∧ groupBusy (unpaired lot0) 0 = false := by decide

/-- The refusals of PLAN_WRITE, GROUP_WRITE and GOLDEN_WRITE: bodies at the ends of the ranges, a set with a serial twice,
an undefined group, and groups that are busy by a cell that correlates and by a standby that covers. -/
theorem witness_LibraryPlanAndGroupWritesStoreTheirValues_refused :
    let s := unpaired lot0
    readProgramWrite [] = none ∧ readProgramDelete [] = none ∧ readPlanWrite [0, 8, 0, 0] = none ∧ readGroupWrite [] = none ∧
    readGoldenWrite [] = none ∧
    readPlanWrite ([0, 7] ++ listOf tierBytes []) = some (7, []) ∧
    readPlanWrite ([0, 7] ++ listOf tierBytes [⟨5, 5, 9⟩, ⟨5, 7, 0⟩]) = some (7, [⟨5, 5, 9⟩, ⟨5, 7, 0⟩]) ∧
    readPlanWrite ([0, 7] ++ listOf tierBytes [⟨65535, 1, 9⟩]) = some (7, [⟨65535, 1, 9⟩]) ∧
    readGoldenWrite ([0, 0] ++ listOf goldenBytes [⟨9, 2⟩, ⟨9, 3⟩]) = some (0, [⟨9, 2⟩, ⟨9, 3⟩]) ∧
    readGoldenWrite ([0, 0] ++ listOf goldenBytes [⟨0, 2⟩]) = some (0, [⟨0, 2⟩]) ∧
    readGoldenWrite ([0, 7] ++ listOf goldenBytes [⟨65535, 2⟩]) = some (7, [⟨65535, 2⟩]) ∧ s.groups[(7 : GroupId)] = none ∧
    readGroupWrite ([0, 1] ++ groupBytes { group with standby := some 0 }) = some (1, { group with standby := some 0 }) ∧
    configured (getCell s 0) = true ∧ (getCell s 0).group ≠ 1 ∧ configured (getCell s 1) = false ∧
    groupBusy (floor { cell0 with state := .correlating } none) 0 = true ∧
    groupBusy { floor { cell0 with actingFor := some 1 } none with
      groups := State.reset.groups.set 0 (some { group with standby := some 0 }) } 0 = true := by decide

theorem witness_OffsetWritesSetOneKey :
    authorised 1 (floorCommand ([0, 0] ++ (productIdent 80).toList ++ signed (-5))) (unpaired lot0) ∧
    readOffsetWrite ([0, 0] ++ (productIdent 80).toList ++ signed (-5)) = some (0, productIdent 80, -5) ∧
    findProduct (unpaired lot0) (productIdent 80) = some 0 ∧ (getCell (unpaired lot0) 0).state ≠ .correlating ∧
    (unpaired lot0).offsets.length < 256 ∧ (getCell (floor { cell0 with state := .correlating } none) 0).state = .correlating :=
  ⟨authorised_of (by decide), by decide⟩

theorem witness_TheTierIsTheFirstLargeEnough :
    plan2 = [⟨500, 50, 0⟩] ++ ⟨3200, 125, 1⟩ :: [⟨10000, 32, 32⟩] ∧ (∀ u ∈ [(⟨500, 50, 0⟩ : Tier)], u.maxLot < 501) ∧
    plan2 = [⟨500, 50, 0⟩, ⟨3200, 125, 1⟩] ++ [⟨10000, 32, 32⟩] ∧ ∀ u ∈ plan2, u.maxLot < 12000 := by decide

/-- The body of a CONFIGURE that keeps cell 0's equipment. -/
def configureBody : List Byte := [0, 0, 1, 3, 232, 1, 7, 208, 0, 0, 0, 0, 0, 0, 0, 2, 1, 0, 0, 3]

theorem witness_ConfigureSetsTheCell :
    let s := floor { cell0 with state := .offline } none
    authorised 1 (floorCommand configureBody) s ∧
    readConfigure configureBody = some ⟨0, 1000, 2000, 0, 0, 0, 2, .single, 0, .either⟩ ∧
    (getCell s 0).state = .offline ∧ isStandby s 0 = false ∧ (∀ d, d ≠ 0 → (getCell s d).tester ≠ some 1000 ∧
      (getCell s d).handler ≠ some 1000 ∧ (getCell s d).tester ≠ some 2000 ∧ (getCell s d).handler ≠ some 2000) :=
  ⟨authorised_of (by decide), by decide⟩

theorem witness_CorrelationStartsAndCovers_enable :
    authorised 1 (floorCommand [0, 0]) (floor { cell0 with state := .offline } none) ∧
    let s := floor { cell0 with state := .offline } none
    configured (getCell s 0) = true ∧ s.groups[(getCell s 0).group] ≠ none ∧
    stationServes s (getCell s 0).tester .tester 0 = true ∧ stationServes s (getCell s 0).handler .handler 0 = true ∧
    (getCell s 0).qual = .qualified :=
  ⟨authorised_of (by decide), by decide⟩

theorem witness_CorrelationStartsAndCovers_others :
    (getCell (unpaired lot0) 0).state = .idle ∧ (getCell (paired .testing .running id) 0).state = .running ∧
    (getCell (floor { cell0 with state := .correlating } none) 0).state = .correlating ∧
    (getCell (floor { cell0 with state := .down } none) 0).state = .down ∧
    configured (getCell (unpaired lot0) 1) = false := by decide

/-- The floor whose group names cell 1 its standby, IDLE in the same group. -/
def covered : State :=
  let s := unpaired lot0
  { s with
    groups := s.groups.set 0 (some { group with standby := some 1 })
    cells := s.cells.set 1 { cell0 with tester := some 1001, handler := some 2001 } }

theorem witness_CorrelationStartsAndCovers_cover :
    (groupOf covered 0).standby = some 1 ∧ (getCell covered 1).state = .idle ∧ (getCell covered 1).actingFor = none ∧
    isStandby covered 1 = true := by decide

theorem witness_CellSettingsAreCleared_disable :
    authorised 1 (floorCommand [0, 0]) (unpaired lot0) ∧
    (getCell (unpaired lot0) 0).state = .idle ∧ isStandby covered 1 = true ∧
    isStandby (setCell 1 { getCell covered 1 with actingFor := some 0 } covered) 1 = true ∧
    (getCell (setCell 1 { getCell covered 1 with actingFor := some 0 } covered) 1).actingFor ≠ none :=
  ⟨authorised_of (by decide), by decide⟩

theorem witness_CellSettingsAreCleared_restore :
    authorised 1 (floorCommand [0, 0, 0, 2]) (floor { cell0 with active := 1 } none) ∧
    readSiteRestore [0, 0, 0, 2] = some (0, 2) ∧ (2 : SiteSet) &&& ~~~cell0.installed = 0 ∧
    (4 : SiteSet) &&& ~~~cell0.installed ≠ 0 ∧ waiting (floor { cell0 with active := 1 } none) 0 = false :=
  ⟨authorised_of (by decide), by decide⟩

theorem witness_ResumeAndUnloadMoveTheLot :
    authorised 1 (floorCommand [0, 0]) (paired .paused .paused id) ∧
    (getCell (paired .paused .paused id) 0).lot = some 0 ∧
    getLot (paired .paused .paused id) 0 = some { lot0 with state := .paused, cell := some 0 } ∧
    blocked { lot0 with state := .paused, cell := some 0 } = false ∧ cell0.qual ≠ .suspect ∧
    (getCell (paired .testing .running id) 0).state = .running ∧
    (getCell (paired .stopping .stopping id) 0).state = .stopping ∧ (getCell (unpaired lot0) 0).state = .idle :=
  ⟨authorised_of (by decide), by decide⟩

/-- A handler's frame about lot 0. -/
def handlerFrame (body : List Byte) : Frame := equipment 2000 (ident 65) body

theorem witness_StoppedActsByTheIntent :
    let s := paired .stopping .stopping fun x => { x with intent := .pause }
    fromEquipment .handler 0 (handlerFrame []) s 0 ∧ (getCell s 0).lot = some 0 ∧
    getLot s 0 = some { lot0 with state := .stopping, cell := some 0 } ∧ (getCell s 0).intent = .pause ∧
    (getCell (paired .stopping .stopping fun x => { x with intent := .unload }) 0).intent = .unload ∧
    (getCell (paired .stopping .stopping id) 0).intent = .none :=
  ⟨fromEquipment_of (by decide), by decide⟩

theorem witness_StoppedActsByTheIntent_without_a_lot :
    fromEquipment .handler 0 (handlerFrame []) (unpaired lot0) 0 ∧ (getCell (unpaired lot0) 0).lot = none :=
  ⟨fromEquipment_of (by decide), by decide⟩

theorem witness_UnloadedPartsLotAndCell :
    let s := paired .unloading .unloading fun x => { x with qual := .suspect }
    fromEquipment .handler 0 (handlerFrame []) s 0 ∧ (getCell s 0).lot = some 0 ∧
    getLot s 0 = some { lot0 with state := .unloading, cell := some 0 } ∧ 0 ∉ s.queue ∧ (∀ c, waiting s c = false) ∧
    (groupOf s 0).standby = none ∧ (getCell s 0).state = .unloading ∧ (getCell s 0).qual = .suspect ∧
    (getCell (paired .unloading .unloading id) 0).qual = .qualified :=
  ⟨fromEquipment_of (by decide), by decide⟩

/-- The boundary at an UNLOADED: a reservation with lots remaining, one without, and a standby that covers nothing. -/
theorem witness_UnloadedPartsLotAndCell_boundary :
    let i := Instr.unloaded (handlerFrame [])
    let block := fun n => paired .unloading .unloading fun x => { x with
      mode := .block, reserved := some 0, blockRemaining := n, latch := true, latchTime := 9 }
    let s := { block 1 with groups := State.reset.groups.set 0 (some { group with standby := some 0 }) }
    fromEquipment .handler 0 (handlerFrame []) (block 1) 0 ∧ fromEquipment .handler 0 (handlerFrame []) s 0 ∧
    (∀ c, waiting (block 1) c = false) ∧ (∀ c, waiting s c = false) ∧ (groupOf s 0).standby = some 0 ∧
    (getCell s 0).actingFor = none ∧ (getCell (block 1) 0).qual = .qualified ∧
    (getCell (after i (block 1)) 0).blockDeadline = some 5100 ∧ (getCell (after i (block 0)) 0).reserved = none ∧
    (getCell (after i s) 0).reserved = none ∧ (getCell (after i (block 1)) 0).latch = false :=
  ⟨fromEquipment_of (by decide), fromEquipment_of (by decide), by decide +kernel⟩

theorem witness_CellDeadlinesStallOrLose :
    (getCell (paired .testing .running fun x => { x with tdDeadline := some 100 }) 0).tdDeadline = some 100 ∧
    100 ≤ (unpaired lot0).mono ∧ (getCell (paired .testing .running id) 0).state = .running ∧
    (getCell (paired .unloading .unloading fun x => { x with unloadDeadline := some 100 }) 0).unloadDeadline = some 100 ∧
    (getLot (paired .unloading .unloading id) 0).map (fun l => (l.cell, l.state)) = some (some 0, .unloading) := by decide

/-- A load record of the product's program. -/
def loadRecord (lot : Option SlotId) (seen attempts : Nat) : LoadRecord := ⟨program 70, 2, seen, attempts, 100, lot⟩

/-- The floor with cell 0 LOADING for lot 0. -/
def loading (seen attempts : Nat) : State :=
  paired .assigned .loading fun x => { x with load := some (loadRecord (some 0) seen attempts) }

theorem witness_LoadSegmentsAndLateReportsAreCounted_load :
    fromFileServer segment (loading 0 1) 0 ∧ fromFileServer segment (unpaired lot0) 0 ∧
    fromEquipment .tester 10 (equipment 1000 noLot (programBytes (program 70))) (unpaired lot0) 0 ∧
    fromEquipment .tester 0 (equipment 1000 noLot []) (unpaired lot0) 0 ∧
    (getCell (unpaired lot0) 0).load = none ∧ segment.port = .floor ∧ segment.body = [] :=
  ⟨fromFileServer_of (by decide), fromFileServer_of (by decide), fromEquipment_of (by decide),
    fromEquipment_of (by decide), by decide⟩

theorem witness_LoadSegmentsAndLateReportsAreCounted_late :
    let s := paired .testing .running id
    fromEquipment .tester 23 (touchdown 0) s 0 ∧ fromEquipment .handler 6 (handlerFrame [0, 1, 0, 0, 0, 0]) s 0 ∧
    readTdResult (touchdown 0).body ≠ none ∧ cellLot s 0 = some (0, { lot0 with state := .testing, cell := some 0 }) ∧
    cellLot (unpaired lot0) 0 = none ∧ (readLotEnd [0, 1, 0, 0, 0, 0]).map (·.pass) = some 1 ∧ lot0.pass = 0 :=
  ⟨fromEquipment_of (by decide), fromEquipment_of (by decide), by decide⟩

/-- A tester's report that it holds the product's program. -/
def ready : Frame := equipment 1000 noLot (programBytes (program 70))

theorem witness_LoadAttemptsEndByTheirOutcome_done :
    (getCell (loading 2 1) 0).load = some (loadRecord (some 0) 2 1) ∧
    endsAttempt (.programReady ready) 0 (loadRecord (some 0) 2 1) .done (loading 2 1) ∧
    (getLot (loading 2 1) 0).map (·.state) = some .assigned :=
  ⟨by decide, .inl ⟨ready, program 70, rfl, fromEquipment_of (by decide), by decide, by decide⟩, by decide⟩

theorem witness_LoadAttemptsEndByTheirOutcome_pulled :
    let s := floor { cell0 with state := .loading, load := some (loadRecord none 2 1) } none
    endsAttempt (.programReady ready) 0 (loadRecord none 2 1) .done s ∧ (getCell s 0).load = some (loadRecord none 2 1) ∧
    (groupOf s 0).standby = none ∧ s.queue = [] ∧ (getCell s 0).qual = .qualified :=
  ⟨.inl ⟨ready, program 70, rfl, fromEquipment_of (by decide), by decide, by decide⟩, by decide⟩

theorem witness_LoadAttemptsEndByTheirOutcome_pulled_due :
    let s := floor { cell0 with state := .loading, load := some (loadRecord none 2 1), qual := .due } none
    endsAttempt (.programReady ready) 0 (loadRecord none 2 1) .done s ∧ (getCell s 0).load = some (loadRecord none 2 1) ∧
    (groupOf s 0).standby = none ∧ (getCell s 0).qual = .due :=
  ⟨.inl ⟨ready, program 70, rfl, fromEquipment_of (by decide), by decide, by decide⟩, by decide⟩

theorem witness_LoadAttemptsEndByTheirOutcome_failed :
    endsAttempt (.loadAbort (equipment 1000 noLot [])) 0 (loadRecord (some 0) 0 1) .aborted (loading 0 1) ∧
    endsAttempt (.loadAbort segment) 0 (loadRecord (some 0) 0 2) .aborted (loading 0 2) ∧
    endsAttempt (.loadDeadlineExpiry 0) 0 (loadRecord (some 0) 0 2) .timeout (loading 0 2) ∧
    (groupOf (loading 0 1) 0).loadRetries = 1 ∧ findProgram (loading 0 1) (program 70) ≠ none ∧
    (∀ c, waiting (loading 0 2) c = false) :=
  ⟨.inr (.inl ⟨_, rfl, rfl, fromEquipment_of (by decide), rfl⟩),
    .inr (.inr (.inl ⟨_, rfl, rfl, fromFileServer_of (by decide), rfl, rfl⟩)),
    .inr (.inr (.inr ⟨rfl, by decide, rfl⟩)), by decide⟩

theorem witness_TouchdownsCountTheReportedSites :
    let s := paired .testing .running id
    let l := { lot0 with state := .testing, cell := some 0 }
    fromEquipment .tester 23 (touchdown 1) s 0 ∧
    (∃ b, readTdResult (touchdown 1).body = some b ∧ tdAccepted (getCell s 0) l (touchdown 1).hdr.lot b = true ∧
      l.lastTd < b.number) ∧
    cellLot s 0 = some (0, l) ∧ l.cell = some 0 ∧ l.pass = 0 ∧ l.state = .testing :=
  ⟨fromEquipment_of (by decide), ⟨_, rfl, by decide⟩, by decide⟩

/-- A pass-0 touchdown of the lot: the hypotheses of the statements on the average and on the fail runs. -/
theorem witness_TouchdownsMoveTheYieldAverage :
    let s := paired .testing .running id
    fromEquipment .tester 23 (touchdown 1) s 0 ∧
    cellLot s 0 = some (0, { lot0 with state := .testing, cell := some 0 }) ∧
    tdAccepted (getCell s 0) { lot0 with state := .testing, cell := some 0 } (ident 65) ⟨1, 0, 3, Vector.replicate 16 0⟩
      = true ∧ lot0.startQty - lot0.tested = 20 :=
  ⟨fromEquipment_of (by decide), by decide⟩

/-- The touchdown that calls for a LOW_YIELD hold: both sites count, one passes, and the sample is reached. -/
theorem witness_TouchdownsMoveTheYieldAverage_screened :
    let s := { paired .testing .running id with
      products := State.reset.products.set 0 (some { product with minSample := 2, yieldFloor := 9000 }) }
    let l := { lot0 with state := .testing, cell := some 0 }
    fromEquipment .tester 23 (touchdown 1) s 0 ∧ (∃ b, readTdResult (touchdown 1).body = some b ∧
      tdAccepted (getCell s 0) l (touchdown 1).hdr.lot b = true ∧ l.lastTd < b.number ∧
      ((List.finRange 16).filter fun k : Site => inSet b.sites k && inSet (getCell s 0).active k) = [0, 1]) ∧
    cellLot s 0 = some (0, l) ∧ pairStates l.state (getCell s 0).state = true ∧ l.pass = 0 ∧
    (getLot (after (.tdResult (touchdown 1)) s) 0).map (fun m => m.holds.map fun h => (h.reason, h.level))
      = some [(128, (productOf s l).autoLevels[0])] :=
  ⟨fromEquipment_of (by decide), ⟨_, rfl, by decide⟩, by decide⟩

theorem witness_FailRunsDisableSites :
    let s := paired .testing .running fun x => { x with failRuns := x.failRuns.set 1 2 }
    fromEquipment .tester 23 (touchdown 1) s 0 ∧ (productOf s lot0).failRunLimit = 3 ∧ (getCell s 0).failRuns[1] + 1 = 3 ∧
    inSet (productOf s lot0).passBins 1 = true ∧ inSet (productOf s lot0).passBins 0 = false :=
  ⟨fromEquipment_of (by decide), by decide⟩

theorem witness_TheTouchdownYieldIsInBasisPoints :
    0 < 16 ∧ 13 ≤ 16 ∧ 16 ≤ 16 := by decide

/-- The lot TESTING on cell 0 with two units in the retest bin. -/
def retested : Lot :=
  { lot0 with state := .testing, cell := some 0, tested := 2, bins := (Vector.replicate 16 0).set 3 2 }

theorem witness_LotEndStartsARetestPass :
    let s := floor { cell0 with state := .running, lot := some 0 } (some retested)
    fromEquipment .handler 6 (handlerFrame [0, 0, 0, 0, 0, 2]) s 0 ∧
    readLotEnd [0, 0, 0, 0, 0, 2] = some ⟨0, 0, 2⟩ ∧ cellLot s 0 = some (0, retested) ∧ (getCell s 0).state = .running ∧
    retested.pass < (productOf s retested).maxRetest ∧ 0 < binSum (productOf s retested).retestBins retested.bins ∧
    blocked retested = false :=
  ⟨fromEquipment_of (by decide), by decide⟩

theorem witness_LotEndClosesTheLot :
    let s := paired .testing .running id
    let l := { lot0 with state := .testing, cell := some 0 }
    fromEquipment .handler 6 (handlerFrame [0, 0, 0, 1, 0, 0]) s 0 ∧
    readLotEnd [0, 0, 0, 1, 0, 0] = some ⟨0, 1, 0⟩ ∧ cellLot s 0 = some (0, l) ∧ (getCell s 0).state = .running ∧
    binSum (productOf s l).retestBins l.bins = 0 ∧ 0 ∉ s.queue ∧ l.qa = none ∧ l.holds = [] ∧ (getCell s 0).mode = .single ∧
    isStandby s 0 = false ∧ (productOf s l).lossAllowance < l.startQty - l.tested :=
  ⟨fromEquipment_of (by decide), by decide⟩

/-- The cells of the boundary's other modes: SUCCESSIVE and BLOCK, with a block going on and at its end, and a lot of the
loaded program that is chosen. -/
theorem witness_LotEndClosesTheLot_boundary :
    let on := fun also : Cell → Cell => paired .testing .running fun x => also { x with loaded := some (program 70) }
    let block := fun n => on fun x => { x with mode := .block, reserved := some 0, blockRemaining := n }
    let next := fun s : State => { s with
      lots := s.lots.set 1 (some { lot0 with ident := ident 66, entrySeq := 2 })
      queue := [1] }
    let s := next (on fun x => { x with mode := .successive })
    fromEquipment .handler 6 (handlerFrame [0, 0, 0, 1, 0, 0]) s 0 ∧
    cellLot s 0 = some (0, { lot0 with state := .testing, cell := some 0 }) ∧ 0 ∉ s.queue ∧
    choose s 0 (programMatches s 0) = some 1 ∧ choose (next (block 1)) 0 (fun _ => true) = some 1 ∧
    choose (block 1) 0 (fun _ => true) = none ∧ (getCell (block 0) 0).blockRemaining = 0 ∧
    (getCell (block 1) 0).reserved ≠ none ∧ (groupOf (block 1) 0).blockWait = 5000 ∧
    (getLot (after (.lotEnd (handlerFrame [0, 0, 0, 1, 0, 0])) s) 1).map (·.state) = some .testing ∧
    (getCell (after (.lotEnd (handlerFrame [0, 0, 0, 1, 0, 0])) (block 1)) 0).blockDeadline = some 5100 :=
  ⟨fromEquipment_of (by decide), by decide +kernel⟩

/-- A standby whose covered cell has returned. -/
theorem witness_LotEndClosesTheLot_cover :
    let s := { paired .testing .running fun x => { x with actingFor := some 1 } with
      groups := State.reset.groups.set 0 (some { group with standby := some 0 })
      cells := (State.reset.cells.set 1 cell0).set 0 { cell0 with state := .running, lot := some 0, actingFor := some 1 } }
    fromEquipment .handler 6 (handlerFrame [0, 0, 0, 1, 0, 0]) s 0 ∧ (groupOf s 0).standby = some 0 ∧
    (getCell s 0).actingFor = some 1 ∧ (getCell s 1).state = .idle ∧ (getCell s 1).qual = .qualified ∧
    (getCell (after (.lotEnd (handlerFrame [0, 0, 0, 1, 0, 0])) s) 0).actingFor = none :=
  ⟨fromEquipment_of (by decide), by decide +kernel⟩

/-- The lot TESTED. -/
def tested : Lot := { lot0 with state := .tested }

theorem witness_QaResultsAreJudged :
    requestReaches .qa (command 440 0 (ident 65) [0, 50, 0, 1]) (unpaired tested) ∧
    readQaResult [0, 50, 0, 1] = some (50, 1) ∧ findLot (unpaired tested) (ident 65) = some 0 ∧
    getLot (unpaired tested) 0 = some tested ∧
    (unpaired tested).plans[(productOf (unpaired tested) tested).plan] = some [⟨500, 50, 1⟩] ∧
    tierFor [⟨500, 50, 1⟩] (goodCount (productOf (unpaired tested) tested) tested) = some ⟨500, 50, 1⟩ ∧
    lot0.state ≠ .tested :=
  ⟨requestReaches_of (by decide), by decide⟩

theorem witness_ShipRequestsAreGrantedOrDenied :
    let s := { unpaired { lot0 with state := .released, releaseTime := some 3 } with releaseList := [0] }
    requestReaches .dock (command 430 0 (ident 65) []) s ∧ requestReaches .dock (command 430 0 noLot []) s ∧
    findLot s (ident 65) = some 0 ∧ s.releaseList.head? = some 0 ∧ s.products[(0 : ProductId)] = some product ∧
    (unpaired tested).releaseList = [] ∧ held.holds ≠ [] ∧ tested.holds = [] :=
  ⟨requestReaches_of (by decide), requestReaches_of (by decide), by decide⟩

/-- The floor with a correlation run on cell 0. -/
def correlatingFloor (results : List GoldenResult) : State :=
  floor { cell0 with state := .correlating, run := some ⟨results, 100⟩ } none

theorem witness_CorrelationResultsKeepTheLastReport :
    fromEquipment .tester 4 (equipment 1000 noLot [0, 7, 0, 1]) (correlatingFloor []) 0 ∧
    readCorrResult [0, 7, 0, 1] = some ⟨7, 1⟩ ∧ (getCell (correlatingFloor []) 0).run = some ⟨[], 100⟩ ∧
    (groupOf (correlatingFloor []) 0).golden = [⟨7, 1⟩] ∧ (getCell (unpaired lot0) 0).run = none :=
  ⟨fromEquipment_of (by decide), by decide⟩

theorem witness_RunsEndInSoakOrDown :
    endsRun (.corrEnd (equipment 1000 noLot [])) 0 ⟨[⟨7, 1⟩], 100⟩ (correlatingFloor [⟨7, 1⟩]) ∧
    endsRun (.correlationDeadlineExpiry 0) 0 ⟨[], 100⟩ (correlatingFloor []) ∧
    (getCell (correlatingFloor [⟨7, 1⟩]) 0).run = some ⟨[⟨7, 1⟩], 100⟩ ∧
    (groupOf (correlatingFloor []) 0).allowed < (groupOf (correlatingFloor []) 0).golden.length :=
  ⟨.inl ⟨_, rfl, fromEquipment_of (by decide)⟩, .inr ⟨rfl, by decide⟩, by decide⟩

theorem named_of {i : SlotId} {l : Lot} {s : State}
    (h : (match l.cell with
      | some c => decide ((getCell s c).lot = some i)
      | none => true) = true) : named i l s := by
  intro c hc
  simpa [hc] using h

theorem witness_HoldPlacementActsByTheLotState :
    let s := paired .testing .running id
    let l := { lot0 with state := .testing, cell := some 0 }
    authorised 3 (command 420 0 (ident 65) [5, 1, 0, 0, 0]) s ∧ named 0 l s ∧
    readHoldPlace [5, 1, 0, 0, 0] = some ⟨5, .blocking, none⟩ ∧ readHoldPlace [5, 2, 0, 0, 0] = some ⟨5, .advisory, none⟩ ∧
    findLot s (ident 65) = some 0 ∧ getLot s 0 = some l ∧ l.holds = [] ∧ (getCell s 0).lot = some 0 ∧
    (getCell s 0).state = .running ∧ recordedLevel 1 (some 2) = 2 :=
  ⟨authorised_of (by decide), named_of (by decide), by decide⟩

theorem witness_HoldIdsAreFresh :
    (∀ i l, getLot (unpaired held) i = some l → l.holds.length ≤ 8) ∧ 1 ≤ (unpaired held).nextHoldId ∧
    (unpaired held).nextHoldId ≤ 65535 :=
  ⟨fun i l h => of_decide_eq_true (lots_of (p := fun _ l => decide (l.holds.length ≤ 8)) (by decide +kernel) i l h), by decide +kernel⟩

theorem witness_HoldReleaseFreesTheLot :
    authorised 3 (command 400 0 (ident 65) [0, 4]) (unpaired held) ∧ named 0 held (unpaired held) ∧ [0, 4] = num 2 4 ∧
    findLot (unpaired held) (ident 65) = some 0 ∧ getLot (unpaired held) 0 = some held ∧
    held.holds.find? (fun e => e.id = 4) = some hold2 ∧
    levelOf (command 400 0 (ident 65) [0, 4]) (unpaired held) ≤ hold2.level ∧
    hold2.level < levelOf (command 420 0 (ident 65) [0, 4]) (unpaired held) ∧ (∀ c, waiting (unpaired held) c = false) :=
  ⟨authorised_of (by decide), named_of (by decide), by decide⟩

/-- The ends of the range of hold ids: 0 is the overflow flag's, 1 and 65535 are holds'. -/
theorem witness_HoldReleaseFreesTheLot_bounds :
    readHoldRelease (num 2 0) = some 0 ∧ readHoldRelease (num 2 1) = some 1 ∧
    readHoldRelease (num 2 65535) = some 65535 := by decide

/-- The lot HELD by its overflow flag alone. -/
def overflown : Lot := { lot0 with state := .held, overflow := true }

theorem witness_HoldReleaseFreesTheLot_overflow :
    authorised 3 (command 400 0 (ident 65) [0, 0]) (unpaired overflown) ∧ named 0 overflown (unpaired overflown) ∧
    findLot (unpaired overflown) (ident 65) = some 0 ∧ overflown.overflow = true ∧
    levelOf (command 400 0 (ident 65) [0, 0]) (unpaired overflown) = 0 ∧
    levelOf (command 420 0 (ident 65) [0, 0]) (unpaired overflown) ≠ 0 ∧ held.overflow = false :=
  ⟨authorised_of (by decide), named_of (by decide), by decide⟩

/-- The body of a HOLD_SWEEP for reason 5 from slot 0, of at most two holds. -/
def sweepBody : List Byte := [5, 0] ++ List.replicate 12 0 ++ [0, 0, 0, 0] ++ [0, 0, 0, 2, 0]

/-- A sweep for reason 5 that has reached slot 0. -/
def sweep (captured : Level) (remaining : Nat) (stop : Bool) : Sweep :=
  ⟨⟨.floor, 400, 7, noLot⟩, captured, 5, none, none, 0, remaining, stop, 0⟩

theorem witness_SweepsTakeTheMatchingHolds :
    authorised 3 (floorCommand sweepBody) (unpaired held) ∧ named 0 held (unpaired held) ∧
    readSweep sweepBody = some ⟨5, none, none, 0, 2, false⟩ ∧ (unpaired held).sweep = none ∧
    ({ unpaired held with sweep := some (sweep 0 2 false) } : State).sweep = some (sweep 0 2 false) ∧
    held.holds.filter (sweepMatches (sweep 0 2 false) held) = [hold2] ∧ hold2.level < (sweep 3 2 true).captured ∧
    (sweep 0 2 false).captured ≤ hold2.level ∧ 1 ≤ (sweep 0 1 false).remaining :=
  ⟨authorised_of (by decide), named_of (by decide), by decide⟩

/-- A sweep of captured level 2 that takes the hold of level 2 and stops at the one of level 1 after it. -/
theorem witness_SweepsTakeTheMatchingHolds_refused_after_a_removal :
    let l := { held with holds := [hold2, ⟨5, 5, .blocking, 1, .station 410, 0⟩] }
    let w := sweep 2 2 true
    let s := { unpaired l with sweep := some w }
    s.sweep = some w ∧ getLot s 0 = some l ∧ named 0 l s ∧ l.holds.filter (sweepMatches w l) = [hold2] ++ l.holds.drop 1 ∧
    w.captured ≤ hold2.level ∧ 1 < w.captured ∧ ([hold2] : List Hold).length < w.remaining ∧
    (getLot (after .sweepStep s) 0).map (fun m => m.holds.map (·.id)) = some [5] :=
  ⟨by decide, by decide, named_of (by decide), by decide⟩

theorem witness_StationCommandsKeepTheTableLegal :
    authorised 0 (floorCommand ([0, 9] ++ stationBytes ⟨600, .dock, 3, .floor, none⟩)) (unpaired lot0) ∧
    authorised 0 (floorCommand [0, 6]) (unpaired lot0) ∧
    readStationWrite ([0, 9] ++ stationBytes ⟨600, .dock, 3, .floor, none⟩) = some (9, ⟨600, .dock, 3, .floor, none⟩) ∧
    [0, 6] = num 2 (6 : StationIx).val ∧ (unpaired lot0).stations[(6 : StationIx)] = some ⟨420, .console, 3, .floor, none⟩ ∧
    stationWorks (unpaired lot0) 420 = false ∧ stationWorks (unpaired lot0) 1000 = true :=
  ⟨authorised_of (by decide), authorised_of (by decide), by decide⟩

theorem witness_LinkCommissionAndCounterCommands :
    authorised 0 (floorCommand (linkBytes ⟨500, 0x9A41, some 400, 5⟩)) (unpaired lot0) ∧
    authorised 0 (floorCommand []) { unpaired lot0 with mode := .commissioning } ∧
    authorised 1 (floorCommand [1]) (unpaired lot0) ∧ authorised 3 (command 420 0 noLot [0]) (unpaired lot0) ∧
    readLinkWrite (linkBytes ⟨500, 0x9A41, some 400, 5⟩) = some ⟨500, 0x9A41, some 400, 5⟩ ∧
    (unpaired lot0).stations[(0 : StationIx)] = some ⟨400, .floor, 0, .floor, none⟩ ∧ (unpaired lot0).link.notice ≠ none :=
  ⟨authorised_of (by decide), authorised_of (by decide), authorised_of (by decide), authorised_of (by decide), by decide⟩

theorem witness_TimeSetMovesFloorTimeAlone :
    authorised 0 (floorCommand [255, 255, 255, 255]) (unpaired lot0) ∧
    [255, 255, 255, 255] = num 4 4294967295 :=
  ⟨authorised_of (by decide), by decide⟩

end Sys2Proof.Tests
end

section
/-! The withdrawal of a lot: what LOT_WITHDRAW's checks ask, and the state that the freeing of a record leaves (R14, R15,
R153). -/

namespace Sys2Proof.Proofs

open Sys2Proof Sys2Proof.Machine Sys2Proof.Laws

/-! ## The checks of LOT_WITHDRAW -/

theorem onCell_eq_true {l : Lot} (h : l.state = .assigned ∨ l.state = .testing ∨ l.state = .stopping ∨
    l.state = .paused ∨ l.state = .unloading) : onCell l = true := by
  rcases h with h | h | h | h | h <;> rw [onCell, h]

theorem onCell_eq_false {l : Lot} (h : l.state = .queued ∨ l.state = .held ∨ l.state = .tested ∨
    l.state = .released ∨ l.state = .empty) : onCell l = false := by
  rcases h with h | h | h | h | h <;> rw [onCell, h]

/-- The withdrawal interlock as R153 words it. -/
theorem interlockPasses_iff {effective : Level} {l : Lot} :
    interlockPasses effective l = true ↔
      (∀ h ∈ l.holds, effective ≤ h.level) ∧ (l.overflow = true → effective = 0) := by
  simp only [interlockPasses, Bool.and_eq_true, List.all_eq_true, decide_eq_true_eq]
  refine and_congr_right fun _ => ?_
  cases l.overflow <;> simp only [Bool.not_false, Bool.not_true, Bool.true_or, Bool.false_or, beq_iff_eq,
    Bool.false_eq_true, false_implies, true_implies]

/-- A stronger hold, or the overflow flag at a level other than 0, stops the withdrawal (R153). -/
theorem interlockPasses_eq_false {effective : Level} {l : Lot}
    (h : (∃ h ∈ l.holds, h.level < effective) ∨ (l.overflow = true ∧ effective ≠ 0)) :
    interlockPasses effective l = false := by
  refine Bool.eq_false_iff.mpr fun passes => ?_
  obtain ⟨noStronger, atZero⟩ := interlockPasses_iff.mp passes
  rcases h with ⟨hold, mem, lt⟩ | ⟨flag, ne⟩
  · exact Fin.not_lt.mpr (noStronger hold mem) lt
  · exact ne (atZero flag)

/-! ## Freeing a record -/

theorem modProduct_of_some {p : ProductId} {e : Product} {s : State} (h : s.products[p] = some e)
    (change : Product → Product) :
    modProduct p change s = { s with products := s.products.set p (some (change e)) } := by
  rw [modProduct, h]

/-- The state after a record's freeing (R15). -/
theorem freeLot_eq {i : SlotId} {l : Lot} {e : Product} {s : State} (lot : getLot s i = some l)
    (product : s.products[l.product] = some e) :
    freeLot i s = { s with
      lots := s.lots.set i none
      queue := s.queue.erase i
      releaseList := s.releaseList.erase i
      products := s.products.set l.product (some { e with inUse := e.inUse - 1 }) } := by
  rw [freeLot, lot]
  exact congrArg (setLot i none) (modProduct_of_some
    (s := { s with queue := s.queue.erase i, releaseList := s.releaseList.erase i }) product _)

/-! ## LOT_WITHDRAW -/

/-- LOT_WITHDRAW of a lot that is found: BAD_STATE on a cell, AUTHORITY at the interlock, and else the notice, the
freeing and the answer (R14, R153). -/
theorem takeLotWithdraw_found {effective : Level} {f : Frame} {s : State} {i : SlotId} {l : Lot} (body : f.body = [])
    (found : findLot s f.hdr.lot = some i) (lot : getLot s i = some l) :
    takeLotWithdraw effective f s =
      if onCell l then reply .lotWithdraw f .badState [] s
      else if !interlockPasses effective l then reply .lotWithdraw f .authority [] s
      else reply .lotWithdraw f .ok [] (freeLot i (lotStateNotice i l.ident (some l.state) none none none s)) := by
  simp only [takeLotWithdraw, body, found, lot, List.isEmpty_nil, Bool.not_true, Bool.false_eq_true, if_false]

theorem exec_lotWithdraw {f : Frame} {s : State} (h : authorised 1 f s) :
    exec (.lotWithdraw f) s = .next (takeLotWithdraw (levelOf f s) f s) :=
  congrArg Host.Outcome.next (onPlainCommand_authorised h)

/-- Settles O24, by the checks of R14 in their order: on a cell or off it, then the interlock of R153. -/
theorem withdrawalMeetsTheInterlock : Obligations.WithdrawalMeetsTheInterlock := by
  unfold Obligations.WithdrawalMeetsTheInterlock
  intro f s i l auth body found lot
  rw [exec_lotWithdraw auth, takeLotWithdraw_found body found lot]
  refine ⟨fun on => ?onCell, fun off => ⟨fun stopped => ?stopped, fun noStronger atZero e product => ?withdrawn⟩⟩
  case onCell => rw [if_pos (onCell_eq_true on)]
  case stopped =>
    simp only [onCell_eq_false off, interlockPasses_eq_false stopped, Bool.not_false, Bool.false_eq_true, if_false, if_true]
  case withdrawn =>
    have passes := interlockPasses_iff.mpr ⟨noStronger, atZero⟩
    have freed := freeLot_eq (s := lotStateNotice i l.ident (some l.state) none none none s)
      ((getLot_lotStateNotice ..).trans lot) (by simpa only [lotStateNotice_products] using product)
    simp only [onCell_eq_false off, passes, freed, Bool.not_true, Bool.false_eq_true, if_false, lotStateNotice_lots,
      lotStateNotice_queue, lotStateNotice_releaseList, lotStateNotice_products]

end Sys2Proof.Proofs
end

section
/-! The tier of a sampling plan for a good-unit count (R28). -/

namespace Sys2Proof.Proofs

open Sys2Proof Sys2Proof.Machine

/-- A tier that is large enough is chosen where every tier before it is too small. -/
theorem tierFor_append_cons {before after : List Tier} {t : Tier} {good : Nat}
    (tooSmall : ∀ u ∈ before, u.maxLot < good) (enough : good ≤ t.maxLot) :
    tierFor (before ++ t :: after) good = some t := by
  have first : (before ++ t :: after).find? (fun u => decide (good ≤ u.maxLot)) = some t :=
    List.find?_eq_some_iff_append.mpr
      ⟨decide_eq_true enough, before, after, rfl, fun u mem => by simpa using tooSmall u mem⟩
  simp only [tierFor, first]

/-- A count above every max lot size takes the last tier. -/
theorem tierFor_of_exceeds {tiers : List Tier} {good : Nat} (tooSmall : ∀ u ∈ tiers, u.maxLot < good) :
    tierFor tiers good = tiers.getLast? := by
  have noTier : tiers.find? (fun u => decide (good ≤ u.maxLot)) = none :=
    List.find?_eq_none.mpr fun u mem => by simpa using tooSmall u mem
  simp only [tierFor, noTier]

/-- Settles O34: a count of 0 is the case in which no tier comes before the one large enough. -/
theorem theTierIsTheFirstLargeEnough : Obligations.TheTierIsTheFirstLargeEnough := by
  unfold Obligations.TheTierIsTheFirstLargeEnough
  refine fun tiers good => ⟨?enough, ?exceeds, ?zero⟩
  case enough =>
    rintro before t after rfl tooSmall enough
    exact tierFor_append_cons tooSmall enough
  case exceeds =>
    rintro before t rfl tooSmall
    exact (tierFor_of_exceeds tooSmall).trans List.getLast?_concat
  case zero =>
    rintro t after rfl rfl
    exact tierFor_append_cons (before := []) (by simp) (Nat.zero_le _)

end Sys2Proof.Proofs
end

section
/-! A cell's request withdrawn: reading a cell number from its two bytes, what a cell without its latch chooses, and
REQUEST_CLEAR with the block wait's expiry (R66, R79, R182). -/

namespace Sys2Proof.Proofs

open Sys2Proof Sys2Proof.Machine Sys2Proof.Laws

/-! ## Reading what was written -/

/-- A number reads back modulo what its bytes can hold, and leaves the bytes after it. -/
theorem readNum_num_append (width n : Nat) (rest : List Byte) :
    readNum width (num width n ++ rest) = some (n % 256 ^ width, rest) := by
  induction width with
  | zero => simp [num, readNum, Nat.mod_one]
  | succ width ih =>
    simp only [num, List.cons_append, readNum, ih, BitVec.toNat_ofNat, Nat.reducePow]
    rw [Nat.mod_pow_succ (b := 256), Nat.add_comm, Nat.mul_comm]

theorem readNum_num_two {n : Nat} (fits : n < 65536) : readNum 2 (num 2 n) = some (n, []) := by
  simpa only [List.append_nil, Nat.reducePow, Nat.mod_eq_of_lt fits] using readNum_num_append 2 n []

theorem readCell_num (c : CellId) : readCell (num 2 c.val) = some c := by
  simp only [readCell, readIndex, readNum_num_two (Nat.lt_trans c.isLt (by decide)), c.isLt, dite_true, whole]

theorem readCell_num_eq_none {n : Nat} (beyond : 31 < n) (fits : n < 65536) : readCell (num 2 n) = none := by
  simp only [readCell, readIndex, readNum_num_two fits, Nat.not_lt.mpr beyond, dite_false, whole]

/-! ## A cell that does not wait -/

theorem waiting_eq_false_of_latch {s : State} {c : CellId} (clear : (getCell s c).latch = false) :
    waiting s c = false := by
  rw [waiting, clear, Bool.and_false, Bool.false_and]

theorem chooseFor_of_not_waiting {s : State} {c : CellId} (h : waiting s c = false) : chooseFor c s = s := by
  rw [chooseFor, h, if_neg Bool.false_ne_true]

/-- A reservation that ends on a cell without its latch is only cleared: the cell chooses nothing (R66). -/
theorem endReservation_of_latch_clear {s : State} {c : CellId} (clear : (getCell s c).latch = false) :
    endReservation c s = modCell c clearReservation s := by
  refine chooseFor_of_not_waiting (waiting_eq_false_of_latch ?_)
  rw [getCell_modCell_same]
  exact clear

/-! ## REQUEST_CLEAR and BLOCK_WAIT_EXPIRY -/

theorem exec_requestClear {f : Frame} {s : State} (h : authorised 2 f s) :
    exec (.requestClear f) s = .next (takeRequestClear f s) :=
  congrArg Host.Outcome.next (onPlainCommand_authorised h)

theorem takeRequestClear_of_unreadable {f : Frame} {s : State} (h : readCell f.body = none) :
    takeRequestClear f s = reply .requestClear f .malformed [] s := by
  rw [takeRequestClear, h]

/-- REQUEST_CLEAR of a cell of the table turns on its latch alone (R66). -/
theorem takeRequestClear_of_cell {f : Frame} {s : State} {c : CellId} (h : readCell f.body = some c) :
    takeRequestClear f s =
      if (getCell s c).latch then reply .requestClear f .ok [] (modCell c clearLatch s)
      else reply .requestClear f .badState [] s := by
  rw [takeRequestClear, h]

/-- A cleared latch takes the cell out of the waiting cells, also after the answer. -/
theorem waiting_reply_clearLatch (q : Command) (f : Frame) (k : AnswerCode) (b : List Byte) (c : CellId) (s : State) :
    waiting (reply q f k b (modCell c clearLatch s)) c = false := by
  refine waiting_eq_false_of_latch ?_
  rw [getCell_reply, getCell_modCell_same, clearLatch]

/-- BLOCK_WAIT_EXPIRY at or after the deadline ends the reservation (R79). -/
theorem exec_blockWaitExpiry_of_reached {s : State} {c : CellId} {d : Nat}
    (deadline : (getCell s c).blockDeadline = some d) (due : d ≤ s.mono) :
    exec (.blockWaitExpiry c) s = .next (endReservation c s) := by
  have isReached : reached s (getCell s c).blockDeadline = true := by rw [deadline]; exact decide_eq_true due
  exact congrArg Host.Outcome.next (if_pos isReached)

/-- Settles O29, by the checks of R66 in their order; at the wait's expiry the cell has no latch to choose with. -/
theorem requestClearKeepsTheReservation : Obligations.RequestClearKeepsTheReservation := by
  unfold Obligations.RequestClearKeepsTheReservation
  refine ⟨fun f s auth => ?command, fun s c d deadline due clear => ?expiry⟩
  case command =>
    rw [exec_requestClear auth]
    refine ⟨fun n beyond fits body => ?malformed, fun c body => ?cell⟩
    case malformed => rw [takeRequestClear_of_unreadable (body ▸ readCell_num_eq_none beyond fits)]
    case cell =>
      rw [takeRequestClear_of_cell (body ▸ readCell_num c)]
      refine ⟨fun clear => ?notLatched, fun latched => ?latched⟩
      case notLatched => rw [clear, if_neg Bool.false_ne_true]
      case latched =>
        rw [latched, if_pos rfl]
        refine ⟨rfl, ?_⟩
        rintro t ⟨⟩
        exact waiting_reply_clearLatch ..
  case expiry =>
    rw [exec_blockWaitExpiry_of_reached deadline due, endReservation_of_latch_clear clear]
    rfl

end Sys2Proof.Proofs
end

section
/-! The touchdown yield as a floor: the largest number of basis points that the good count reaches (R111). -/

namespace Sys2Proof.Proofs

open Sys2Proof Sys2Proof.Machine

/-- Every bound on the yield is read off this: y basis points are reached where y of every 10000 sites passed. -/
theorem le_touchdownYield_iff {g n y : Nat} (counted : 0 < n) : y ≤ touchdownYield g n ↔ y * n ≤ g * 10000 :=
  Nat.le_div_iff_mul_le counted

theorem touchdownYield_lt_iff {g n y : Nat} (counted : 0 < n) : touchdownYield g n < y ↔ g * 10000 < y * n := by
  rw [← Nat.not_le, le_touchdownYield_iff counted, Nat.not_le]

/-- No more than the counted sites pass, so the yield stays below 10001. -/
theorem touchdownYield_le {g n : Nat} (counted : 0 < n) (good : g ≤ n) : touchdownYield g n ≤ 10000 := by
  have below : touchdownYield g n < 10001 := (touchdownYield_lt_iff counted).mpr (by omega)
  exact Nat.le_of_lt_succ below

/-- The full yield is reached only where the good count is no less than the counted one. -/
theorem touchdownYield_eq_full_iff {g n : Nat} (counted : 0 < n) (good : g ≤ n) :
    touchdownYield g n = 10000 ↔ g = n := by
  have reached : 10000 ≤ touchdownYield g n ↔ n ≤ g := by
    rw [le_touchdownYield_iff counted, Nat.mul_comm, Nat.mul_le_mul_right_iff (by decide)]
  have atMost : touchdownYield g n ≤ 10000 := touchdownYield_le counted good
  constructor
  · intro full
    exact Nat.le_antisymm good (reached.mp (Nat.le_of_eq full.symm))
  · intro all
    exact Nat.le_antisymm atMost (reached.mpr (Nat.le_of_eq all.symm))

/-- Settles O46: the floor's two bounds are the two readings of the yield against itself and its successor. -/
theorem theTouchdownYieldIsInBasisPoints : Obligations.TheTouchdownYieldIsInBasisPoints := by
  unfold Obligations.TheTouchdownYieldIsInBasisPoints
  intro g n counted good
  have lower : touchdownYield g n * n ≤ g * 10000 := (le_touchdownYield_iff counted).mp (Nat.le_refl _)
  have upper : g * 10000 < (touchdownYield g n + 1) * n := (touchdownYield_lt_iff counted).mp (Nat.lt_succ_self _)
  exact ⟨touchdownYield_le counted good, touchdownYield_eq_full_iff counted good, lower, upper⟩

end Sys2Proof.Proofs
end

section
/-! The hold-id counter: the ids it goes round, how many of them can be held, and what recording a hold does with it
(R141, R146). -/

namespace Sys2Proof.Proofs

open Sys2Proof Sys2Proof.Machine Sys2Proof.Laws

/-! ## The ids from the counter on -/

/-- The id that n advances of the counter lead to: 1..65535 in a circle. -/
def idAfter (start n : Nat) : Nat := (start - 1 + n) % 65535 + 1

theorem idAfter_zero {start : Nat} (low : 1 ≤ start) (high : start ≤ 65535) : idAfter start 0 = start := by
  unfold idAfter
  omega

theorem advanceId_idAfter (start n : Nat) : advanceId (idAfter start n) = idAfter start (n + 1) := by
  unfold advanceId idAfter
  split <;> omega

/-- The counter comes back to an id only after all the others. -/
theorem idAfter_inj {start a b : Nat} (ha : a < 65535) (hb : b < 65535) (same : idAfter start a = idAfter start b) :
    a = b := by
  unfold idAfter at same
  omega

/-- The ids ahead of the counter in its circle, all 65535 of them. -/
def idsAhead (start : Nat) : List Nat := (List.range 65535).map (idAfter start)

theorem length_idsAhead (start : Nat) : (idsAhead start).length = 65535 := by
  rw [idsAhead, List.length_map, List.length_range]

theorem nodup_idsAhead (start : Nat) : (idsAhead start).Nodup :=
  List.pairwise_map.mpr (List.nodup_range.imp_of_mem fun ha hb differ same =>
    differ (idAfter_inj (List.mem_range.mp ha) (List.mem_range.mp hb) same))

/-! ## The ids that holds carry -/

/-- A hold on some lot carries the id. -/
def idHeld (s : State) (id : Nat) : Prop := ∃ i l h, getLot s i = some l ∧ h ∈ l.holds ∧ h.id = id

theorem holdIdUsed_iff {s : State} {id : Nat} : holdIdUsed s id = true ↔ idHeld s id := by
  unfold holdIdUsed idHeld
  rw [List.any_eq_true]
  refine exists_congr fun i => ?_
  cases getLot s i <;> simp [allSlots]

/-- The ids of the holds on the lot of a slot, none where the slot is free. -/
def slotHoldIds (s : State) (i : SlotId) : List Nat := ((getLot s i).elim [] Lot.holds).map Hold.id

theorem mem_slotHoldIds {s : State} {i : SlotId} {id : Nat} :
    id ∈ slotHoldIds s i ↔ ∃ l h, getLot s i = some l ∧ h ∈ l.holds ∧ h.id = id := by
  unfold slotHoldIds
  cases getLot s i <;> simp

theorem mem_allSlots (i : SlotId) : i ∈ allSlots := List.mem_finRange i

theorem length_allSlots : allSlots.length = 256 := List.length_finRange

/-- The ids that the holds on the lots of some slots carry. -/
def heldIds (s : State) (slots : List SlotId) : List Nat := slots.flatMap (slotHoldIds s)

theorem mem_heldIds_allSlots {s : State} {id : Nat} : id ∈ heldIds s allSlots ↔ idHeld s id := by
  unfold heldIds idHeld
  rw [List.mem_flatMap]
  refine exists_congr fun i => ?_
  rw [mem_slotHoldIds, and_iff_right (mem_allSlots i)]

section
variable {s : State} (short : ∀ i l, getLot s i = some l → l.holds.length ≤ 8)
include short

theorem length_slotHoldIds_le (i : SlotId) : (slotHoldIds s i).length ≤ 8 := by
  rw [slotHoldIds, List.length_map]
  cases slot : getLot s i with
  | none => exact Nat.zero_le 8
  | some l => exact short i l slot

theorem length_heldIds_le (slots : List SlotId) : (heldIds s slots).length ≤ slots.length * 8 := by
  induction slots with
  | nil => exact Nat.zero_le _
  | cons i slots ih =>
    have here : (slotHoldIds s i).length ≤ 8 := length_slotHoldIds_le short i
    have split : heldIds s (i :: slots) = slotHoldIds s i ++ heldIds s slots := List.flatMap_cons
    rw [split, List.length_append, List.length_cons]
    omega

/-- 256 lots of 8 holds carry fewer ids than lie ahead of the counter, so one of those is free. -/
theorem not_all_idAfter_held (start : Nat) : ¬ ∀ n, n < 65535 → idHeld s (idAfter start n) := by
  intro all
  have among : idsAhead start ⊆ heldIds s allSlots := by
    intro id mem
    obtain ⟨n, inRange, rfl⟩ := List.mem_map.mp mem
    rw [mem_heldIds_allSlots]
    exact all n (List.mem_range.mp inRange)
  have many : (idsAhead start).length ≤ (heldIds s allSlots).length :=
    (nodup_idsAhead start).length_le_of_subset among
  have few : (heldIds s allSlots).length ≤ allSlots.length * 8 := length_heldIds_le short allSlots
  rw [length_idsAhead] at many
  rw [length_allSlots] at few
  omega

end

/-! ## The search for a free id -/

/-- The search finds the first free id, or every id within its tries is held. -/
theorem freshHoldId_cases (s : State) (start tries k : Nat) :
    (∃ n, n < tries ∧ freshHoldId s tries (idAfter start k) = idAfter start (k + n) ∧
      ¬ idHeld s (idAfter start (k + n)) ∧ ∀ m, m < n → idHeld s (idAfter start (k + m))) ∨
    ∀ n, n < tries → idHeld s (idAfter start (k + n)) := by
  induction tries generalizing k with
  | zero => exact .inr fun n within => absurd within (Nat.not_lt_zero n)
  | succ tries ih =>
    by_cases used : holdIdUsed s (idAfter start k) = true
    case neg =>
      exact .inl ⟨0, Nat.succ_pos tries, if_neg used, mt holdIdUsed_iff.mpr used,
        fun m before => absurd before (Nat.not_lt_zero m)⟩
    case pos =>
      have onward : freshHoldId s (tries + 1) (idAfter start k) = freshHoldId s tries (idAfter start (k + 1)) := by
        rw [freshHoldId, if_pos used, advanceId_idAfter]
      have heldBelow {n : Nat} (rest : ∀ m, m < n → idHeld s (idAfter start (k + 1 + m))) :
          ∀ m, m < n + 1 → idHeld s (idAfter start (k + m)) := by
        rw [Nat.forall_lt_succ_left]
        simp only [Nat.add_right_comm k 1] at rest
        exact ⟨holdIdUsed_iff.mp used, rest⟩
      obtain ⟨n, within, found, free, rest⟩ | rest := ih (k + 1)
      · rw [Nat.add_right_comm] at found free
        exact .inl ⟨n + 1, Nat.succ_lt_succ within, onward.trans found, free, heldBelow rest⟩
      · exact .inr (heldBelow rest)

/-- With at most 8 holds on a lot the search always finds the first free id (R141). -/
theorem nextFreeId_first_free {s : State} (short : ∀ i l, getLot s i = some l → l.holds.length ≤ 8)
    (low : 1 ≤ s.nextHoldId) (high : s.nextHoldId ≤ 65535) :
    ∃ n, n < 65535 ∧ nextFreeId s = idAfter s.nextHoldId n ∧ ¬ idHeld s (idAfter s.nextHoldId n) ∧
      ∀ m, m < n → idHeld s (idAfter s.nextHoldId m) := by
  have search := freshHoldId_cases s s.nextHoldId 65535 0
  simp only [Nat.zero_add, idAfter_zero low high] at search
  exact search.resolve_right (not_all_idAfter_held short s.nextHoldId)

/-! ## Recording a hold and setting the overflow flag -/

/-- What is quiet leaves each lot's holds. -/
theorem quiet_holds {s t : State} {i : SlotId} {l : Lot} (quiet : Quiet s t) (before : getLot s i = some l) :
    ∃ m, getLot t i = some m ∧ m.holds = l.holds := by
  have fixed : (getLot t i).map lotFixed = some (lotFixed l) := by rw [quiet.lots, before, Option.map_some]
  obtain ⟨m, after, same⟩ := Option.map_eq_some_iff.mp fixed
  have holds : (lotFixed m).holds = (lotFixed l).holds := congrArg Lot.holds same
  exact ⟨m, after, holds⟩

theorem holdPlacedNotice_quiet (i : SlotId) (l : Lot) (h : Hold) (overflow : Bool) (s : State) :
    Quiet s (holdPlacedNotice i l h overflow s) := notice_quiet ..

/-- Beyond the record and the advanced counter, recording a hold is quiet (R146). -/
theorem recordHold_quiet {i : SlotId} {l : Lot} {s : State} (slot : getLot s i = some l) (reason : Nat)
    (kind : HoldKind) (level : Level) (origin : HoldOrigin) :
    Quiet
      (setLot i (some { l with holds := l.holds ++ [⟨nextFreeId s, reason, kind, level, origin, floorTime s⟩] })
        { s with nextHoldId := advanceId (nextFreeId s) })
      (recordHold i reason kind level origin s) := by
  rw [recordHold, slot]
  exact quiet_trans (holdPlacedNotice_quiet ..) (placementEffect_quiet ..)

theorem setOverflow_nextHoldId (i : SlotId) (reason : AutoReason) (s : State) :
    (setOverflow i reason s).nextHoldId = s.nextHoldId := by
  unfold setOverflow
  split
  case h_1 => rfl
  case h_2 l _ =>
    split
    · rfl
    · exact (quiet_trans (holdPlacedNotice_quiet ..) (blockingEffect_quiet ..)).holdId

/-- Settles O55: at most 2048 of the 65535 ids are held, so the search finds the first free one within its tries. -/
theorem holdIdsAreFresh : Obligations.HoldIdsAreFresh := by
  unfold Obligations.HoldIdsAreFresh
  refine ⟨fun s short low high => ?fresh, fun s i l reason kind level origin slot => ?recorded,
    fun s i reason => setOverflow_nextHoldId i reason s, fun _ => rfl⟩
  case fresh =>
    obtain ⟨n, within, first, free, used⟩ := nextFreeId_first_free short low high
    exact ⟨n, within, first, free, used, (congrArg advanceId first).trans (advanceId_idAfter ..)⟩
  case recorded =>
    have quiet := recordHold_quiet slot reason kind level origin
    obtain ⟨m, after, holds⟩ := quiet_holds quiet (getLot_setLot_same ..)
    exact ⟨quiet.holdId, m, _, after, holds, rfl⟩

end Sys2Proof.Proofs
end

section
/-! Floor time set by TIME_SET: the offset that makes it the value carried, and the command's answer (R190, R191). -/

namespace Sys2Proof.Proofs

open Sys2Proof Sys2Proof.Machine Sys2Proof.Laws

/-- The offset adds up with monotonic time to the value, where the value is a 32-bit one (R190, R191). -/
theorem add_offsetFor_mod (mono : Nat) {time : Nat} (fits : time < 4294967296) :
    (mono + offsetFor mono time) % 2 ^ 32 = time := by
  unfold offsetFor
  omega

/-- Floor time under the offset of TIME_SET is the value carried (R191). -/
theorem floorTime_offsetFor (s : State) {time : Nat} (fits : time < 4294967296) :
    floorTime { s with offset := offsetFor s.mono time } = time :=
  add_offsetFor_mod s.mono fits

theorem readTimeSet_num {time : Nat} (fits : time < 4294967296) : readTimeSet (num 4 time) = some time := by
  have read : readNum 4 (num 4 time) = some (time, []) := by
    simpa only [List.append_nil, Nat.reducePow, Nat.mod_eq_of_lt fits] using readNum_num_append 4 time []
  rw [readTimeSet, readNum4, read, whole]

/-- TIME_SET of a value that is read answers floor time before and after, and writes the offset alone (R191). -/
theorem takeTimeSet_of_read {f : Frame} {s : State} {time : Nat} (h : readTimeSet f.body = some time) :
    takeTimeSet f s =
      reply .timeSet f .ok (num 4 (floorTime s) ++ num 4 (floorTime { s with offset := offsetFor s.mono time }))
        { s with offset := offsetFor s.mono time } := by
  rw [takeTimeSet, h]

theorem exec_timeSet {f : Frame} {s : State} (h : authorised 0 f s) : exec (.timeSet f) s = .next (takeTimeSet f s) :=
  congrArg Host.Outcome.next (onPlainCommand_authorised h)

/-- Settles O60: the answer's second floor time is read off the state that has the new offset, so it is the value. -/
theorem timeSetMovesFloorTimeAlone : Obligations.TimeSetMovesFloorTimeAlone := by
  unfold Obligations.TimeSetMovesFloorTimeAlone
  intro f s time auth fits body
  have read : readTimeSet f.body = some time := body ▸ readTimeSet_num fits
  have after := floorTime_offsetFor s fits
  refine ⟨{ s with offset := offsetFor s.mono time }, ?_, after, rfl⟩
  rw [exec_timeSet auth, takeTimeSet_of_read read, after]

end Sys2Proof.Proofs
end
